-- ==== Sys2Proof/Word.lean ====
section
/-! DEFINITION. The word types of the block (spec/00_scope.md R17, R18): a byte, a byte array of fixed
size, and the coded symbol with its erasure. -/

namespace Sys2Proof

/-- A byte is 8 bits, bit 0 the least significant (00_scope.md R17). -/
abbrev Byte := BitVec 8

/-- A byte array of `n` bytes, `A[i]` being byte `i`, indices from 0 (00_scope.md R18). -/
abbrev Bytes (n : Nat) := Vector Byte n

/-- A bit string in order of position (00_scope.md R18). -/
abbrev Bits := List Bool

/-- A symbol of a depunctured sequence: a received bit, or `E`, an erasure (43_viterbi.md R132). -/
inductive Sym where
  | bit (b : Bool)
  | erased
  deriving DecidableEq, Repr

end Sys2Proof
end

