-- ==== Sys2Proof/Config.lean ====
section
/-! DEFINITION. What the spec leaves open and no definition may fix: the two open parameters of the
Viterbi unit (spec/00_scope.md R15, spec/43_viterbi.md R135, spec/93_implementation_defined.md U4, U5).
Both are opaque constants without a body: nothing can be proved of their values, so a claim about the
machine holds for every choice. The parameters that have a default stand in Machine/Params.lean. -/

namespace Sys2Proof

/-- The domain of `VIT_END` (00_scope.md R15): paths may end in any trellis state, or in state 0 only. -/
inductive VitEnd where
  | free
  | zero
  deriving DecidableEq, Repr, Inhabited

/-- `VIT_END` of this instance of the hardware: open (log 9). -/
opaque Config.vitEnd : VitEnd

/-- `VIT_TIE` of this instance: for the depunctured sequence being decoded, a step number and a trellis
state, whether the later of two candidates of equal cost is kept. Open (log 10). It is a function of its
arguments, since equal inputs give equal outputs within one instance (93_implementation_defined.md U5). -/
opaque Config.vitTie : List Sym → Nat → Nat → Bool

end Sys2Proof
end

