-- ==== Sys2Proof/Machine/Params.lean ====
section
/-! DEFINITION. The configuration parameters of the block at the values spec/00_scope.md section 3 takes
for them (R6 to R14). They are fixed when the hardware is built; no operation reads one from the state or
writes one (R16). Those the spec states from general knowledge are UNVERIFIED, unsafe: log 1 to log 8. -/

namespace Sys2Proof.Machine

/-- `SYNC_REF` in evaluation order: preamble, link-setup, stream (00_scope.md R6). The preamble word is
the source's; the other two are UNVERIFIED, unsafe (log 1). -/
def syncRefPreamble : Bytes 2 := #v[0x77, 0x77]
/-- `SYNC_REF[1]`, the link-setup sync word (00_scope.md R6). UNVERIFIED, unsafe (log 1). -/
def syncRefLinkSetup : Bytes 2 := #v[0x55, 0xF7]
/-- `SYNC_REF[2]`, the stream sync word (00_scope.md R6). UNVERIFIED, unsafe (log 1). -/
def syncRefStream : Bytes 2 := #v[0xFF, 0x5D]

/-- `SYNC_THRESHOLD` (00_scope.md R7). UNVERIFIED, unsafe (log 1). -/
def syncThreshold : Nat := 4

/-- `DECORR_SEQ`, byte 0 first (00_scope.md R8). UNVERIFIED, unsafe (log 2). -/
def decorrSeq : Bytes 46 := #v[
  0xD6, 0xB5, 0xE2, 0x30, 0x82, 0xFF, 0x84, 0x62,
  0xBA, 0x4E, 0x96, 0x90, 0xD8, 0x98, 0xDD, 0x5D,
  0x0C, 0xC8, 0x52, 0x43, 0x91, 0x1D, 0xF8, 0x6E,
  0x68, 0x2F, 0x35, 0xDA, 0x14, 0xEA, 0xCD, 0x76,
  0x19, 0x8D, 0xD5, 0x80, 0xD1, 0x33, 0x87, 0x13,
  0x57, 0x18, 0x2D, 0x29, 0x78, 0xC3]

/-- `INTL_PI`, the interleaver's permutation of the bit positions 0 to 367 (00_scope.md R9,
41_bit_transform.md R102). UNVERIFIED, unsafe (log 3). -/
def intlPi (i : Nat) : Nat := (45 * i + 92 * i * i) % 368

/-- `GOLAY_P[0]` to `GOLAY_P[11]`, the parity contribution of data bits 0 to 11 (00_scope.md R10).
UNVERIFIED, unsafe (log 4). -/
def golayP : List (BitVec 12) :=
  [0x8EB, 0x93E, 0xA97, 0xDC6, 0x367, 0x6CD, 0xD99, 0x3DA, 0x7B4, 0xF68, 0x63B, 0xC75]

/-- `GOLAY_T`, the guaranteed correction radius (00_scope.md R10). -/
def golayT : Nat := 3

/-- `PUNCT_LSF`: the group 1,1,0,1 fifteen times, then a single 1 (00_scope.md R12). UNVERIFIED, unsafe
(log 6). -/
def punctLsf : Bits := (List.replicate 15 [true, true, false, true]).flatten ++ [true]

/-- `PUNCT_STREAM`: eleven 1 followed by one 0 (00_scope.md R12). UNVERIFIED, unsafe (log 6). -/
def punctStream : Bits := List.replicate 11 true ++ [false]

/-- The polynomial of the default `LSF_VALID` (00_scope.md R14, 44_lich.md R160). UNVERIFIED, unsafe
(log 8). -/
def crcPoly : BitVec 16 := 0x5935

/-- The initial value of the default `LSF_VALID` (00_scope.md R14). UNVERIFIED, unsafe (log 8). -/
def crcInit : BitVec 16 := 0xFFFF

end Sys2Proof.Machine
end

