-- ==== Sys2Proof/Syntax.lean ====
section
/-! DEFINITION. The operations of the block, one constructor per row of spec/opcode_table.json, with the
operands the row's rule gives it, and the result types the rules name. -/

namespace Sys2Proof

/-- The Frame Type, in the order the source lists the set (30_encoding.md R77). -/
inductive FrameType where
  | preamble
  | linkSetup
  | stream
  | unknown
  deriving DecidableEq, Repr

/-- The result of GOLAY24_DECODE: a 12-bit value, or the one extra outcome (30_encoding.md R66). -/
inductive GolayResult where
  | ok (v : BitVec 12)
  | uncorrectable
  deriving DecidableEq, Repr

/-- The outcome of LICH_UNPACK (44_lich.md R151). The abandoned ones carry the detail a trace may carry:
the index of the first failing sub-block (60_exceptions.md R193), the reserved number 6 or 7 (R194). -/
inductive LichResult where
  | segment (content : Bytes 5) (segnum : Fin 6)
  | golayUncorrectable (subBlock : Fin 4)
  | segnumInvalid (number : BitVec 3)
  deriving DecidableEq, Repr

/-- How a row of the table is written down: a command byte (30_encoding.md R75), a sync field (R62), or
not at all (R78). -/
inductive Format where
  | command
  | sync
  | unit
  deriving DecidableEq, Repr

/-- The operations of spec/opcode_table.json. -/
inductive Instr where
  /-- RESET, 45_frame_decoder.md R170. -/
  | reset
  /-- DECODE_FRAME, 45_frame_decoder.md R171. -/
  | decodeFrame (frame : Bytes 48)
  /-- DF.PREAMBLE, 45_frame_decoder.md R175. -/
  | dfPreamble (sync : Bytes 2) (payload : Bytes 46)
  /-- DF.LINK_SETUP, 45_frame_decoder.md R173. -/
  | dfLinkSetup (sync : Bytes 2) (payload : Bytes 46)
  /-- DF.STREAM, 45_frame_decoder.md R174. -/
  | dfStream (sync : Bytes 2) (payload : Bytes 46)
  /-- DF.UNKNOWN, 45_frame_decoder.md R176. -/
  | dfUnknown (sync : Bytes 2) (payload : Bytes 46)
  /-- DIST16, 40_classifier.md R90. -/
  | dist16 (s ref : Bytes 2)
  /-- CLASSIFY, 40_classifier.md R91. -/
  | classify (s : Bytes 2)
  /-- DECORRELATE, 41_bit_transform.md R100. -/
  | decorrelate (p : Bytes 46)
  /-- DEINTERLEAVE, 41_bit_transform.md R103. -/
  | deinterleave (p : Bytes 46)
  /-- BITXFORM, 41_bit_transform.md R105. -/
  | bitxform (p : Bytes 46)
  /-- GOLAY24_DECODE, 42_golay.md R118. -/
  | golay24Decode (w : BitVec 24)
  /-- DEPUNCTURE, 43_viterbi.md R132: the received bits and the puncture pattern (`true` keeps). -/
  | depuncture (r pattern : Bits)
  /-- VITERBI, 43_viterbi.md R134. -/
  | viterbi (y : List Sym)
  /-- CONVDEC, 43_viterbi.md R136: a byte array, a puncture pattern, the output size in bytes. -/
  | convdec (b : List Byte) (pattern : Bits) (n : Nat)
  /-- CONVDEC_LSF, 43_viterbi.md R137. -/
  | convdecLsf (x : Bytes 46)
  /-- CONVDEC_STREAM, 43_viterbi.md R138. -/
  | convdecStream (x : Bytes 46)
  /-- LICH_EXTRACT, 44_lich.md R150. -/
  | lichExtract (x : Bytes 46)
  /-- LICH_UNPACK, 44_lich.md R151. -/
  | lichUnpack (lich : Bytes 12)
  /-- LICH_ACCUMULATE, 44_lich.md R157 to R159. -/
  | lichAccumulate (content : Bytes 5) (segnum : Fin 6)
  /-- LSF_VALID, 44_lich.md R160. -/
  | lsfValid (l : Bytes 30)
  deriving DecidableEq, Repr

/-- The "format" column of spec/opcode_table.json. -/
def Instr.format : Instr → Format
  | .reset | .decodeFrame _ => .command
  | .dfPreamble _ _ | .dfLinkSetup _ _ | .dfStream _ _ | .dfUnknown _ _ => .sync
  | .dist16 _ _ | .classify _ | .decorrelate _ | .deinterleave _ | .bitxform _ | .golay24Decode _ => .unit
  | .depuncture _ _ | .viterbi _ | .convdec _ _ _ | .convdecLsf _ | .convdecStream _ => .unit
  | .lichExtract _ | .lichUnpack _ | .lichAccumulate _ _ | .lsfValid _ => .unit

end Sys2Proof
end

