-- ==== Sys2Proof/Machine/Operands.lean ====
section
/-! DEFINITION. Bit and byte order of the operands: bit positions in a byte array (spec/20_memory.md R43),
sub-arrays (spec/00_scope.md R18), population counts, and the fields every operation extracts
(spec/30_encoding.md R60, R61, R64, R67, R69, R80). -/

namespace Sys2Proof.Machine

/-- `popcount` restricted to the bits below `n`. -/
def popcountBelow {w : Nat} (v : BitVec w) : Nat → Nat
  | 0 => 0
  | n + 1 => popcountBelow v n + (v.getLsbD n).toNat

/-- `popcount(v)`, the number of 1 bits of `v` (00_scope.md R17). -/
def popcount {w : Nat} (v : BitVec w) : Nat := popcountBelow v w

/-- Byte `i` of an array, and 0 past its end; every index the rules form is inside (20_memory.md R41). -/
def byteAt {n : Nat} (a : Bytes n) (i : Nat) : Byte := a.toList.getD i 0

/-- The array of `n` entries whose entry `i` is `f i`. -/
def tabulate {α : Type} (n : Nat) (f : Nat → α) : Vector α n := ⟨((List.range n).map f).toArray, by simp⟩

/-- `getbit(A, p)`, bit-string position `p` of a byte array: most significant bit first, lowest byte first
(20_memory.md R43, log 21). -/
def getbit {n : Nat} (a : Bytes n) (p : Nat) : Bool := (byteAt a (p / 8)).getLsbD (7 - p % 8)

/-- The byte whose bit `7 - j` is `f j`, for `j` from 0 to 7. -/
def byteOfBits (f : Nat → Bool) : Byte :=
  BitVec.ofBool (f 0) ++ BitVec.ofBool (f 1) ++ BitVec.ofBool (f 2) ++ BitVec.ofBool (f 3) ++
    BitVec.ofBool (f 4) ++ BitVec.ofBool (f 5) ++ BitVec.ofBool (f 6) ++ BitVec.ofBool (f 7)

/-- The array of `n` bytes whose bit-string position `p` is `f p` (20_memory.md R43). -/
def ofBits (n : Nat) (f : Nat → Bool) : Bytes n :=
  tabulate n fun i => byteOfBits fun j => f (8 * i + j)

/-- `setbit(A, p, v)` of 20_memory.md R43: the array with bit-string position `p` replaced. -/
def setbit {n : Nat} (a : Bytes n) (p : Nat) (v : Bool) : Bytes n :=
  ofBits n fun q => if q = p then v else getbit a q

/-- The bit string a byte is, position 0 its most significant bit (00_scope.md R18). -/
def bitsOfByte (b : Byte) : Bits :=
  [b.getLsbD 7, b.getLsbD 6, b.getLsbD 5, b.getLsbD 4, b.getLsbD 3, b.getLsbD 2, b.getLsbD 1, b.getLsbD 0]

/-- The bit string a byte array is (00_scope.md R18). -/
def bitsOf (bs : List Byte) : Bits := bs.flatMap bitsOfByte

/-- `n` bytes with `getbit(out, k) = u[k]` (43_viterbi.md R136, 20_memory.md R45). -/
def packBits (n : Nat) (u : Bits) : Bytes n := ofBits n fun k => u.getD k false

/-- The sub-array `A[start : start + len]` (00_scope.md R18). -/
def slice {n : Nat} (a : Bytes n) (start len : Nat) : Bytes len :=
  tabulate len fun i => byteAt a (start + i)

/-- The first `n` bytes of a list as an array. -/
def toBytes (n : Nat) (bs : List Byte) : Bytes n := tabulate n fun i => bs.getD i 0

/-- An array of `n` zero bytes. -/
def zeroBytes (n : Nat) : Bytes n := Vector.replicate n 0

/-- `SYNC = FRAME[0:2]` (30_encoding.md R60). -/
def frameSync (frame : Bytes 48) : Bytes 2 := slice frame 0 2

/-- `PAYLOAD = FRAME[2:48]` (30_encoding.md R60). -/
def framePayload (frame : Bytes 48) : Bytes 46 := slice frame 2 46

/-- The raw frame of a sync field and a payload (30_encoding.md R60). -/
def frameOf (sync : Bytes 2) (payload : Bytes 46) : Bytes 48 := sync ++ payload

/-- `LSF_CODED = X[0:46]` (30_encoding.md R61). -/
def lsfCoded (x : Bytes 46) : List Byte := (slice x 0 46).toList

/-- `STREAM_CODED = X[12:46]` (30_encoding.md R61). -/
def streamCoded (x : Bytes 46) : List Byte := (slice x 12 34).toList

/-- `w_i`, sub-block `i` of a LICH field as a 24-bit number, first byte most significant
(30_encoding.md R64, 20_memory.md R44; 90_conflicts.md C9). -/
def lichCodeword (lich : Bytes 12) (i : Nat) : BitVec 24 :=
  byteAt lich (3 * i) ++ byteAt lich (3 * i + 1) ++ byteAt lich (3 * i + 2)

/-- The 6-byte segment of four decoded values, byte by byte (30_encoding.md R67; 90_conflicts.md C1,
log 23). -/
def packSegment (v0 v1 v2 v3 : BitVec 12) : Bytes 6 := #v[
  v0.extractLsb' 4 8,
  v0.extractLsb' 0 4 ++ v1.extractLsb' 8 4,
  v1.extractLsb' 0 8,
  v2.extractLsb' 4 8,
  v2.extractLsb' 0 4 ++ v3.extractLsb' 8 4,
  v3.extractLsb' 0 8]

/-- `CONTENT`, the first 5 bytes of a segment (30_encoding.md R69). -/
def segContent (seg : Bytes 6) : Bytes 5 := slice seg 0 5

/-- `SEGNUM = SEG[5] >> 5`; the low 5 bits take part in nothing (30_encoding.md R69, 44_lich.md R154). -/
def segNumber (seg : Bytes 6) : BitVec 3 := (byteAt seg 5).extractLsb' 5 3

end Sys2Proof.Machine
end

