-- ==== Sys2Proof/Machine/BitTransform.lean ====
section
/-! DEFINITION. The Bit Transform Stage (spec/41_bit_transform.md R100 to R109). -/

namespace Sys2Proof.Machine

/-- DECORRELATE, the exclusive or with `DECORR_SEQ` (41_bit_transform.md R100). -/
def decorrelate (p : Bytes 46) : Bytes 46 := tabulate 46 fun i => byteAt p i ^^^ byteAt decorrSeq i

/-- DEINTERLEAVE: bit `i` of the result is bit `INTL_PI(i)` of the operand; the two readings of R103 agree
because `INTL_PI` is an involution (41_bit_transform.md R103). -/
def deinterleave (p : Bytes 46) : Bytes 46 := ofBits 46 fun i => getbit p (intlPi i)

/-- BITXFORM, the exclusive or first and the permutation second (41_bit_transform.md R105). -/
def bitxform (p : Bytes 46) : Bytes 46 := deinterleave (decorrelate p)

end Sys2Proof.Machine
end

