-- ==== Sys2Proof/Machine/Classifier.lean ====
section
/-! DEFINITION. The Frame Type Classifier (spec/40_classifier.md R90 to R99), a pure function of the two
sync bytes. -/

namespace Sys2Proof.Machine

/-- DIST16, the Hamming distance of a sync field to one reference (40_classifier.md R90). -/
def dist16 (s ref : Bytes 2) : Nat := popcount (s[0] ^^^ ref[0]) + popcount (s[1] ^^^ ref[1])

/-- CLASSIFY: the nearest reference, the earliest on a tie, UNKNOWN when the least distance exceeds the
threshold (40_classifier.md R91 to R93). -/
def classify (s : Bytes 2) : FrameType :=
  let d0 := dist16 s syncRefPreamble
  let d1 := dist16 s syncRefLinkSetup
  let d2 := dist16 s syncRefStream
  let first := if d1 < d0 then (FrameType.linkSetup, d1) else (FrameType.preamble, d0)
  let best := if d2 < first.2 then (FrameType.stream, d2) else first
  if syncThreshold < best.2 then .unknown else best.1

end Sys2Proof.Machine
end

