-- ==== Sys2Proof/Machine/Golay.lean ====
section
/-! DEFINITION. The Golay Decoder (spec/42_golay.md R115 to R128): the code, the syndrome, the
bounded-distance decoder of R118 and the table form of R123. -/

namespace Sys2Proof.Machine

/-- `golay_parity(d)`, the exclusive or of `GOLAY_P[k]` over the set bits of `d` (42_golay.md R116). -/
def golayParity (d : BitVec 12) : BitVec 12 :=
  (List.range 12).foldl (fun acc k => if d.getLsbD k then acc ^^^ golayP.getD k 0 else acc) 0

/-- `golay_encode(d)`, data in bits 23 to 12 and parity in bits 11 to 0 (42_golay.md R116,
30_encoding.md R65). A definition the decoding rule refers to; no operation computes it. -/
def golayEncode (d : BitVec 12) : BitVec 24 := d ++ golayParity d

/-- `golay_syndrome(w)` (42_golay.md R117). -/
def golaySyndrome (w : BitVec 24) : BitVec 12 := golayParity (w.extractLsb' 12 12) ^^^ w.extractLsb' 0 12

/-- The `w`-bit word with the bits at the given positions set. -/
def wordOfPositions (w : Nat) (ps : List Nat) : BitVec w := ps.foldl (fun acc p => acc ||| BitVec.twoPow w p) 0

/-- The sublists of `n` elements of a list. -/
def choose : Nat → List Nat → List (List Nat)
  | 0, _ => [[]]
  | _ + 1, [] => []
  | n + 1, p :: ps => (choose n ps).map (p :: ·) ++ choose (n + 1) ps

/-- The `w`-bit words of weight at most `t`, the lightest first. -/
def wordsUpTo (w t : Nat) : List (BitVec w) :=
  ((List.range (t + 1)).flatMap fun n => choose n (List.range w)).map (wordOfPositions w)

/-- The codeword of `d` is within the correction radius of `w` (42_golay.md R118). -/
def golayNear (w : BitVec 24) (d : BitVec 12) : Bool := popcount (w ^^^ golayEncode d) ≤ golayT

/-- GOLAY24_DECODE: the data of a codeword within distance `GOLAY_T`, else UNCORRECTABLE
(42_golay.md R118). A codeword so near agrees with the data half of `w` but for at most `GOLAY_T` bits, so
only those are tried. -/
def golay24Decode (w : BitVec 24) : GolayResult :=
  match ((wordsUpTo 12 golayT).map (w.extractLsb' 12 12 ^^^ ·)).find? (golayNear w) with
  | some d => .ok d
  | none => .uncorrectable

/-- The 2325 error patterns of weight at most 3 (42_golay.md R123). -/
def golayErrors : List (BitVec 24) := wordsUpTo 24 golayT

/-- The table form of GOLAY24_DECODE: `T[s]` is the pattern of weight at most 3 whose syndrome is `s`
(42_golay.md R123). -/
def golay24DecodeTable (w : BitVec 24) : GolayResult :=
  match golayErrors.find? (fun e => golaySyndrome e == golaySyndrome w) with
  | some e => .ok ((w ^^^ e).extractLsb' 12 12)
  | none => .uncorrectable

/-- The 16-bit carrier of the result, 0xFFFF for UNCORRECTABLE (30_encoding.md R66, log 27). -/
def golayCarrier : GolayResult → BitVec 16
  | .ok v => v.setWidth 16
  | .uncorrectable => 0xFFFF

end Sys2Proof.Machine
end

