-- ==== Sys2Proof/Machine/Lich.lean ====
section
/-! DEFINITION. The pure part of the LICH Reassembler (spec/44_lich.md): extraction, unpacking, the
validity predicate. What it does to the Decoder State stands in Machine/Ops.lean. -/

namespace Sys2Proof.Machine

/-- LICH_EXTRACT, `X[0:12]` (44_lich.md R150). -/
def lichExtract (x : Bytes 46) : Bytes 12 := slice x 0 12

/-- Steps 3 and 4: pack, read the segment number, reject 6 and 7 (44_lich.md R153 to R155). -/
def lichSegment (v0 v1 v2 v3 : BitVec 12) : LichResult :=
  let seg := packSegment v0 v1 v2 v3
  if h : (segNumber seg).toNat < 6 then .segment (segContent seg) ⟨(segNumber seg).toNat, h⟩
  else .segnumInvalid (segNumber seg)

/-- LICH_UNPACK: all four sub-blocks must decode before the segment number is looked at
(44_lich.md R151, R152, R156). -/
def lichUnpack (lich : Bytes 12) : LichResult :=
  match golay24Decode (lichCodeword lich 0), golay24Decode (lichCodeword lich 1),
      golay24Decode (lichCodeword lich 2), golay24Decode (lichCodeword lich 3) with
  | .ok v0, .ok v1, .ok v2, .ok v3 => lichSegment v0 v1 v2 v3
  | .uncorrectable, _, _, _ => .golayUncorrectable 0
  | _, .uncorrectable, _, _ => .golayUncorrectable 1
  | _, _, .uncorrectable, _ => .golayUncorrectable 2
  | _, _, _, .uncorrectable => .golayUncorrectable 3

/-- One of the 8 shifts of the check (44_lich.md R160). -/
def crcShift (crc : BitVec 16) : BitVec 16 := if crc.getLsbD 15 then (crc <<< 1) ^^^ crcPoly else crc <<< 1

/-- One byte of the check (44_lich.md R160). -/
def crcByte (crc : BitVec 16) (b : Byte) : BitVec 16 := Nat.repeat crcShift 8 (crc ^^^ (b ++ 0#8))

/-- `crc16(D)` (44_lich.md R160). -/
def crc16 (d : List Byte) : BitVec 16 := d.foldl crcByte crcInit

/-- LSF_VALID: the check over bytes 0 to 27 equals bytes 28 and 29 read big-endian (44_lich.md R160,
log 8). -/
def lsfValid (l : Bytes 30) : Bool := crc16 (slice l 0 28).toList == byteAt l 28 ++ byteAt l 29

end Sys2Proof.Machine
end

