-- ==== Sys2Proof/Machine/Flags.lean ====
section
/-! DEFINITION. The block has no flags and no condition codes (spec/10_state.md R32). What stands here in
their place are the failure conditions of spec/60_exceptions.md R191, kept as the ghost result that R210
allows, and the numeric codes of the Frame Type (spec/30_encoding.md R77). -/

namespace Sys2Proof.Machine

/-- The condition an operation noted, with the detail a trace may carry (60_exceptions.md R191 to R195,
R210). GOLAY_UNCORRECTABLE carries the first failing sub-block when LICH_UNPACK notes it. -/
inductive Condition where
  | none
  | syncMismatch
  | golayUncorrectable (subBlock : Option (Fin 4))
  | segnumInvalid (number : BitVec 3)
  | lsfInvalid
  deriving DecidableEq, Repr

/-- The code of a condition (60_exceptions.md R191; the spec's own numbers, log 27). -/
def conditionCode : Condition → Nat
  | .none => 0
  | .syncMismatch => 1
  | .golayUncorrectable _ => 2
  | .segnumInvalid _ => 3
  | .lsfInvalid => 4

/-- The 2-bit code of a Frame Type (30_encoding.md R77; the spec's own numbers, log 27). -/
def frameTypeCode : FrameType → BitVec 2
  | .preamble => 0
  | .linkSetup => 1
  | .stream => 2
  | .unknown => 3

/-- The condition CLASSIFY raises with its result (40_classifier.md R91, 60_exceptions.md R192). -/
def classifyCondition : FrameType → Condition
  | .unknown => .syncMismatch
  | .preamble | .linkSetup | .stream => .none

/-- The condition GOLAY24_DECODE raises with its result (42_golay.md R118). -/
def golayCondition : GolayResult → Condition
  | .uncorrectable => .golayUncorrectable Option.none
  | .ok _ => .none

/-- The condition LICH_UNPACK raises with its outcome (44_lich.md R151, 60_exceptions.md R193, R194). -/
def lichCondition : LichResult → Condition
  | .segment _ _ => .none
  | .golayUncorrectable i => .golayUncorrectable (some i)
  | .segnumInvalid n => .segnumInvalid n

end Sys2Proof.Machine
end

