-- ==== Sys2Proof/Machine/State.lean ====
section
/-! DEFINITION. The state of the machine: the Decoder State of spec/10_state.md R20, which is all the spec
gives the block, and the model's own host port (what the host has issued, what it was answered). -/

namespace Sys2Proof.Machine

/-- The Decoder State, the whole architectural state of the block (10_state.md R20). -/
structure Decoder where
  /-- `LSF`, the adopted Link Setup Frame (10_state.md R21). -/
  lsf : Bytes 30
  /-- `LSF_SCRATCH`, the Link Setup Frame under reassembly (10_state.md R22). -/
  lsfScratch : Bytes 30
  /-- `SEGMAP`, bit `n` set when segment `n` has been accepted since the last clearing (10_state.md R23). -/
  segmap : BitVec 6
  /-- `STREAM`, the current decoded Stream Frame (10_state.md R24). -/
  stream : Bytes 18
  deriving DecidableEq, Repr

/-- What an operation returns to its caller. The hardware's only result is the Frame Type of DECODE_FRAME
(45_frame_decoder.md R171); the others are the results of the unit operations. -/
inductive Result where
  | frameType (t : FrameType)
  | distance (d : Nat)
  | bytes (b : List Byte)
  | golay (r : GolayResult)
  | symbols (y : List Sym)
  | bits (u : Bits)
  | lich (r : LichResult)
  | valid (b : Bool)
  deriving DecidableEq, Repr

/-- The state of one instance of the block and its host port. -/
structure State where
  /-- The Decoder State. -/
  dec : Decoder
  /-- The MODEL's own: the command bytes issued and not yet taken, with the frame operand behind its
  command byte (30_encoding.md R75, R79; log 12). -/
  input : List Byte
  /-- The MODEL's own: what the last operation returned (log 15). Nothing reads it. -/
  result : Option Result
  /-- The MODEL's own: the ghost condition of the last operation (60_exceptions.md R210; log 16). Nothing
  reads it. -/
  condition : Condition
  deriving DecidableEq, Repr

/-- No input can stop the block or make it signal an error (60_exceptions.md R190,
93_implementation_defined.md section 1): there is no fault to name, and no operation raises one. -/
inductive Fault where
  deriving DecidableEq, Repr

/-- Why a step is refused. Each refusal stops the model where the spec gives no behaviour, which is safe. -/
inductive Refusal where
  /-- An instruction without a meaning yet; raised by no arm. Safe. -/
  | notModelled (mnemonic : String)
  /-- Raised by the fetch: a command code from 0x02 to 0xFF (30_encoding.md R76,
  93_implementation_defined.md U1). Safe. -/
  | reservedCommand (code : Byte)
  /-- Raised by the fetch: a DECODE_FRAME command with fewer than 48 bytes behind it (60_exceptions.md R209,
  93_implementation_defined.md U2); the number of bytes there are. Safe. -/
  | truncatedFrame (got : Nat)
  /-- Raised by DEPUNCTURE and CONVDEC: bits to place and a pattern without a 1, against the constraint of
  00_scope.md R12; the loop of 43_viterbi.md R132 has no end. Safe (log 20). -/
  | patternKeepsNothing
  /-- Raised by VITERBI: a sequence of odd length, which is no operand of 43_viterbi.md R134. Safe
  (log 20). -/
  | oddSymbolCount
  /-- Raised by CONVDEC: fewer than `8*n` decoded bits, against the requirement of 43_viterbi.md R136. Safe
  (log 20). -/
  | outputTooLong
  deriving DecidableEq, Repr

/-- The Decoder State after RESET and at creation: every component zero (10_state.md R37, R38). -/
def Decoder.cleared : Decoder :=
  { lsf := Vector.replicate 30 0, lsfScratch := Vector.replicate 30 0, segmap := 0,
    stream := Vector.replicate 18 0 }

/-- The machine right after reset: the cleared Decoder State (10_state.md R37), and a host port on which
nothing has been issued or answered (log 12, log 15, log 16). -/
def State.reset : State := { dec := Decoder.cleared, input := [], result := none, condition := .none }

end Sys2Proof.Machine
end

