-- ==== Sys2Proof/Machine/Viterbi.lean ====
section
/-! DEFINITION. The Punctured Convolutional Decoder (spec/43_viterbi.md R130 to R144): the code, the
trellis, depuncturing, the cost of a path, maximum likelihood as a relation (R134, R135), and the survivor
algorithm (R142) with every tie left to the open parameter `VIT_TIE`. -/

namespace Sys2Proof.Machine

/-- A trellis state, `8*u[k-1] + 4*u[k-2] + 2*u[k-3] + u[k-4]` (43_viterbi.md R131). -/
abbrev Trellis := BitVec 4

/-- The successor of a state on input `u`, `8*u + (s >> 1)` (43_viterbi.md R131). -/
def trellisNext (s : Trellis) (u : Bool) : Trellis := BitVec.ofBool u ++ s.extractLsb' 1 3

/-- The G1 output, `u[k] ^ u[k-3] ^ u[k-4]` (43_viterbi.md R130, log 5). -/
def outG1 (s : Trellis) (u : Bool) : Bool := u ^^ s.getLsbD 1 ^^ s.getLsbD 0

/-- The G2 output, `u[k] ^ u[k-1] ^ u[k-2] ^ u[k-4]` (43_viterbi.md R130, log 5). -/
def outG2 (s : Trellis) (u : Bool) : Bool := u ^^ s.getLsbD 3 ^^ s.getLsbD 2 ^^ s.getLsbD 0

/-- The coded sequence of an input sequence from trellis state `s` on. -/
def encFrom (s : Trellis) : Bits → Bits
  | [] => []
  | u :: us => outG1 s u :: outG2 s u :: encFrom (trellisNext s u) us

/-- `ENC(u)`: the encoder starts in state 0 (43_viterbi.md R130). -/
def enc (u : Bits) : Bits := encFrom 0 u

/-- `PUNCT[i mod len(PUNCT)]` (30_encoding.md R72). -/
def punctKeeps (pattern : Bits) (i : Nat) : Bool := pattern.getD (i % pattern.length) false

/-- What a transmitter keeps of the coded positions from `i` on (30_encoding.md R72); a definition that
R140 refers to, no operation computes it. -/
def punctureFrom (pattern : Bits) (i : Nat) : Bits → Bits
  | [] => []
  | c :: cs =>
    if punctKeeps pattern i then c :: punctureFrom pattern (i + 1) cs else punctureFrom pattern (i + 1) cs

/-- The punctured stream of a coded sequence (30_encoding.md R72). -/
def puncture (pattern c : Bits) : Bits := punctureFrom pattern 0 c

/-- The loop of DEPUNCTURE from coded position `i` on, with fuel for its passes (43_viterbi.md R132). -/
def depunctureLoop (pattern : Bits) : Nat → Nat → Bits → List Sym
  | 0, _, _ => []
  | _ + 1, _, [] => []
  | fuel + 1, i, b :: r =>
    if punctKeeps pattern i then .bit b :: depunctureLoop pattern fuel (i + 1) r
    else .erased :: depunctureLoop pattern fuel (i + 1) (b :: r)

/-- An odd count of symbols gets one erasure more (43_viterbi.md R132, log 28). -/
def padEven (y : List Sym) : List Sym := if y.length % 2 = 1 then y ++ [.erased] else y

/-- DEPUNCTURE (43_viterbi.md R132). A pattern that keeps a bit places one at least every `length` passes,
so the fuel suffices. -/
def depuncture (r pattern : Bits) : List Sym := padEven (depunctureLoop pattern (r.length * pattern.length) 0 r)

/-- The loop of DEPUNCTURE comes to an end: nothing is to be placed, or the pattern contains a 1
(00_scope.md R12). -/
def depunctureEnds (r pattern : Bits) : Bool := r.isEmpty || pattern.any id

/-- The cost of emitting `c` where `y` was received: an erased position costs nothing (43_viterbi.md R133). -/
def symCost (y : Sym) (c : Bool) : Nat :=
  match y with
  | .bit b => if b = c then 0 else 1
  | .erased => 0

/-- `cost(u, y)`, the number of positions received and different (43_viterbi.md R133). -/
def pathCost (u : Bits) (y : List Sym) : Nat := (List.zipWith symCost y (enc u)).sum

/-- Membership of `ADM(N)` (43_viterbi.md R134; for N < 4 log 11). -/
def Admissible (e : VitEnd) (n : Nat) (u : Bits) : Prop :=
  u.length = n ∧ (e = .zero → ∀ b ∈ u.drop (n - 4), b = false)

/-- `u` is a result VITERBI may give for `y`: it attains the least cost over `ADM(N)`
(43_viterbi.md R134). -/
def MostLikely (e : VitEnd) (y : List Sym) (u : Bits) : Prop :=
  Admissible e (y.length / 2) u ∧ ∀ v, Admissible e (y.length / 2) v → pathCost u y ≤ pathCost v y

/-- A survivor: the least cost to reach a state and the inputs that do it, the last first. -/
structure Survivor where
  cost : Nat
  path : Bits
  deriving DecidableEq, Repr

/-- The survivors of the 16 states; `none` where no path leads. -/
abbrev Front := Vector (Option Survivor) 16

/-- A choice of the open parameters `VIT_END` and `VIT_TIE` (43_viterbi.md R135). -/
structure VitChoice where
  vend : VitEnd
  tie : List Sym → Nat → Nat → Bool

/-- The choice of this instance of the hardware, open (log 9, log 10). -/
def vitChoice : VitChoice := ⟨Config.vitEnd, Config.vitTie⟩

/-- The cheaper of two candidates; `later` says which of two equal ones is kept (43_viterbi.md R142). -/
def keepCheaper (later : Bool) : Option Survivor → Option Survivor → Option Survivor
  | none, q => q
  | p, none => p
  | some p, some q =>
    if p.cost < q.cost then some p
    else if q.cost < p.cost then some q
    else if later then some q else some p

/-- Before step 0 only state 0 is reached (43_viterbi.md R131). -/
def startFront : Front := tabulate 16 fun s => if s = 0 then some ⟨0, []⟩ else none

/-- A survivor of state `s` extended by input `u` where `y1`, `y2` were received. -/
def extendSurvivor (front : Front) (s : Trellis) (u : Bool) (y1 y2 : Sym) : Option Survivor :=
  (front[s.toNat]).map fun p => ⟨p.cost + symCost y1 (outG1 s u) + symCost y2 (outG2 s u), u :: p.path⟩

/-- One trellis step: state `t` is reached on the input that is its top bit from the two states whose
upper three bits are its lower three (43_viterbi.md R131, R142). -/
def frontStep (tie : Nat → Bool) (front : Front) (y1 y2 : Sym) : Front :=
  tabulate 16 fun t =>
    let target := BitVec.ofNat 4 t
    let u := target.getLsbD 3
    let low := target.extractLsb' 0 3
    keepCheaper (tie t) (extendSurvivor front (low ++ 0#1) u y1 y2)
      (extendSurvivor front (low ++ 1#1) u y1 y2)

/-- The survivors after the whole sequence; `k` is the step number (43_viterbi.md R142). -/
def frontAfter (tie : Nat → Nat → Bool) (k : Nat) (front : Front) : List Sym → Front
  | y1 :: y2 :: ys => frontAfter tie (k + 1) (frontStep (tie k) front y1 y2) ys
  | _ => front

/-- The survivor the trace-back starts from: the cheapest of all states, or that of state 0
(43_viterbi.md R142). -/
def finalSurvivor (e : VitEnd) (tie : Nat → Bool) (front : Front) : Option Survivor :=
  match e with
  | .free => (List.range 16).foldl (fun best s => keepCheaper (tie s) best (front.toList.getD s none)) none
  | .zero => front[0]

/-- VITERBI for one choice of the open parameters (43_viterbi.md R134, R135, R142). -/
def viterbi (c : VitChoice) (y : List Sym) : Bits :=
  match finalSurvivor c.vend (c.tie y (y.length / 2)) (frontAfter (c.tie y) 0 startFront y) with
  | some p => p.path.reverse
  | none => []

/-- CONVDEC: depuncture, decode, keep the first `8*n` bits (43_viterbi.md R136). -/
def convdec (c : VitChoice) (b : List Byte) (pattern : Bits) (n : Nat) : Bytes n :=
  packBits n (viterbi c (depuncture (bitsOf b) pattern))

/-- CONVDEC asks for `N >= 8*n` trellis steps (43_viterbi.md R136). -/
def convdecFits (b : List Byte) (pattern : Bits) (n : Nat) : Bool :=
  decide (8 * n ≤ (depuncture (bitsOf b) pattern).length / 2)

/-- CONVDEC_LSF, over the whole transformed payload (43_viterbi.md R137). -/
def convdecLsf (c : VitChoice) (x : Bytes 46) : Bytes 30 := convdec c (lsfCoded x) punctLsf 30

/-- CONVDEC_STREAM, over the payload behind the LICH field (43_viterbi.md R138). -/
def convdecStream (c : VitChoice) (x : Bytes 46) : Bytes 18 := convdec c (streamCoded x) punctStream 18

end Sys2Proof.Machine
end

