-- ==== Sys2Proof/Machine/Ops.lean ====
section
/-! DEFINITION. What the operations do to the Decoder State (spec/44_lich.md R157 to R159,
spec/45_frame_decoder.md R170 to R176) and how an operation answers its caller. The block takes no
exception and returns from none (spec/60_exceptions.md R190, R199, R200): what stands in their place is the
abandonment of a LICH segment, in `applyLich`. -/

namespace Sys2Proof.Machine

/-- Step 5, the copy: bytes `5*SEGNUM` to `5*SEGNUM + 4` become the content, the other 25 keep their values
(44_lich.md R157, 30_encoding.md R71). -/
def copySegment (scratch : Bytes 30) (content : Bytes 5) (segnum : Fin 6) : Bytes 30 :=
  tabulate 30 fun i =>
    if 5 * segnum.val ≤ i ∧ i < 5 * segnum.val + 5 then byteAt content (i - 5 * segnum.val)
    else byteAt scratch i

/-- Step 5, the mark: set, not toggled (44_lich.md R158; bit values log 22). -/
def markSegment (map : BitVec 6) (segnum : Fin 6) : BitVec 6 := map ||| BitVec.twoPow 6 segnum.val

/-- All six segment numbers are marked (44_lich.md R159). -/
def mapComplete (map : BitVec 6) : Bool := map == 0x3F#6

/-- LICH_ACCUMULATE: copy, mark, and, when all six are there, validate, adopt if valid, and clear
(44_lich.md R157 to R159). The condition is LSF_INVALID where a complete candidate fails. -/
def accumulate (content : Bytes 5) (segnum : Fin 6) (d : Decoder) : Decoder × Condition :=
  let scratch := copySegment d.lsfScratch content segnum
  let map := markSegment d.segmap segnum
  if mapComplete map then
    if lsfValid scratch then
      ({ d with lsf := scratch, lsfScratch := zeroBytes 30, segmap := 0 }, .none)
    else ({ d with lsfScratch := zeroBytes 30, segmap := 0 }, .lsfInvalid)
  else ({ d with lsfScratch := scratch, segmap := map }, .none)

/-- The LICH part of a STREAM frame: an accepted segment is accumulated; an abandoned one writes nothing
and leaves its condition (45_frame_decoder.md R174, 60_exceptions.md R190, R193, R194). -/
def applyLich (r : LichResult) (d : Decoder) : Decoder × Condition :=
  match r with
  | .segment content segnum => accumulate content segnum d
  | .golayUncorrectable i => (d, .golayUncorrectable (some i))
  | .segnumInvalid n => (d, .segnumInvalid n)

/-- Path DF.LINK_SETUP on a transformed payload: all 30 bytes of `LSF`, unconditionally
(45_frame_decoder.md R173; 90_conflicts.md C2, log 29). -/
def linkSetupPath (c : VitChoice) (x : Bytes 46) (d : Decoder) : Decoder := { d with lsf := convdecLsf c x }

/-- Path DF.STREAM on a transformed payload: the LICH part, then all 18 bytes of `STREAM`, whatever became
of the LICH part (45_frame_decoder.md R174, log 29). -/
def streamPath (c : VitChoice) (x : Bytes 46) (d : Decoder) : Decoder × Condition :=
  let lich := applyLich (lichUnpack (lichExtract x)) d
  ({ lich.1 with stream := convdecStream c x }, lich.2)

/-- DECODE_FRAME as a function of the Decoder State: the type returned, the new state, the ghost condition
(45_frame_decoder.md R171, R179), for one choice of the open parameters. -/
def decodeFrameWith (c : VitChoice) (frame : Bytes 48) (d : Decoder) : FrameType × Decoder × Condition :=
  let t := classify (frameSync frame)
  let x := bitxform (framePayload frame)
  match t with
  | .linkSetup => (t, linkSetupPath c x d, .none)
  | .stream => (t, streamPath c x d)
  | .preamble => (t, d, .none)
  | .unknown => (t, d, .syncMismatch)

/-- A unit operation that writes no state answers its caller (00_scope.md R19, log 15). -/
def State.answer (s : State) (r : Result) (c : Condition) : State :=
  { s with result := some r, condition := c }

/-- An operation on the Decoder State ends: the new Decoder State, what is returned, what was noted. -/
def State.finish (s : State) (d : Decoder) (r : Option Result) (c : Condition) : State :=
  { s with dec := d, result := r, condition := c }

end Sys2Proof.Machine
end

