-- ==== Sys2Proof/Machine/FrameDecoder.lean ====
section
/-! DEFINITION. The meanings of the two host operations and of the four paths of DECODE_FRAME
(spec/45_frame_decoder.md R170 to R176). A path's meaning is the work of DECODE_FRAME once its sync field
has selected it: transform the payload, take the path, return the type (phases 2 to 5 of R172; log 17). -/

namespace Sys2Proof.Machine

/-- RESET: every component to zero; no return value (45_frame_decoder.md R170). -/
def execReset (s : State) : Host.Outcome State Fault Refusal :=
  .next (s.finish Decoder.cleared none .none)

/-- DF.PREAMBLE: nothing (45_frame_decoder.md R175). -/
def execDfPreamble (_sync : Bytes 2) (_payload : Bytes 46) (s : State) : Host.Outcome State Fault Refusal :=
  .next (s.finish s.dec (some (.frameType .preamble)) .none)

/-- DF.LINK_SETUP (45_frame_decoder.md R173). -/
def execDfLinkSetup (_sync : Bytes 2) (payload : Bytes 46) (s : State) : Host.Outcome State Fault Refusal :=
  .next (s.finish (linkSetupPath vitChoice (bitxform payload) s.dec) (some (.frameType .linkSetup)) .none)

/-- DF.STREAM (45_frame_decoder.md R174). -/
def execDfStream (_sync : Bytes 2) (payload : Bytes 46) (s : State) : Host.Outcome State Fault Refusal :=
  .next (s.finish (streamPath vitChoice (bitxform payload) s.dec).1 (some (.frameType .stream))
    (streamPath vitChoice (bitxform payload) s.dec).2)

/-- DF.UNKNOWN: nothing; the condition is SYNC_MISMATCH (45_frame_decoder.md R176). -/
def execDfUnknown (_sync : Bytes 2) (_payload : Bytes 46) (s : State) : Host.Outcome State Fault Refusal :=
  .next (s.finish s.dec (some (.frameType .unknown)) .syncMismatch)

/-- DECODE_FRAME: classify the sync field, transform the payload, take the path, return the type
(45_frame_decoder.md R171, R172). -/
def execDecodeFrame (frame : Bytes 48) (s : State) : Host.Outcome State Fault Refusal :=
  .next (s.finish (decodeFrameWith vitChoice frame s.dec).2.1
    (some (.frameType (decodeFrameWith vitChoice frame s.dec).1))
    (decodeFrameWith vitChoice frame s.dec).2.2)

end Sys2Proof.Machine
end

