-- ==== Sys2Proof/Machine/UnitOps.lean ====
section
/-! DEFINITION. The meanings of the unit operations (spec/30_encoding.md R78): each computes its function,
writes no component of the Decoder State unless its rule says so, and answers its caller. The machine never
fetches one alone (log 17). -/

namespace Sys2Proof.Machine

/-- DIST16 (40_classifier.md R90). -/
def execDist16 (a ref : Bytes 2) (s : State) : Host.Outcome State Fault Refusal :=
  .next (s.answer (.distance (dist16 a ref)) .none)

/-- CLASSIFY (40_classifier.md R91); SYNC_MISMATCH when the result is UNKNOWN. -/
def execClassify (a : Bytes 2) (s : State) : Host.Outcome State Fault Refusal :=
  .next (s.answer (.frameType (classify a)) (classifyCondition (classify a)))

/-- DECORRELATE (41_bit_transform.md R100). -/
def execDecorrelate (p : Bytes 46) (s : State) : Host.Outcome State Fault Refusal :=
  .next (s.answer (.bytes (decorrelate p).toList) .none)

/-- DEINTERLEAVE (41_bit_transform.md R103). -/
def execDeinterleave (p : Bytes 46) (s : State) : Host.Outcome State Fault Refusal :=
  .next (s.answer (.bytes (deinterleave p).toList) .none)

/-- BITXFORM (41_bit_transform.md R105). -/
def execBitxform (p : Bytes 46) (s : State) : Host.Outcome State Fault Refusal :=
  .next (s.answer (.bytes (bitxform p).toList) .none)

/-- GOLAY24_DECODE (42_golay.md R118); GOLAY_UNCORRECTABLE when the result is UNCORRECTABLE. -/
def execGolay24Decode (w : BitVec 24) (s : State) : Host.Outcome State Fault Refusal :=
  .next (s.answer (.golay (golay24Decode w)) (golayCondition (golay24Decode w)))

/-- DEPUNCTURE (43_viterbi.md R132). -/
def execDepuncture (r pattern : Bits) (s : State) : Host.Outcome State Fault Refusal :=
  if depunctureEnds r pattern then .next (s.answer (.symbols (depuncture r pattern)) .none)
  else .refused .patternKeepsNothing

/-- VITERBI (43_viterbi.md R134), the operand being a sequence of even length. -/
def execViterbi (y : List Sym) (s : State) : Host.Outcome State Fault Refusal :=
  if y.length % 2 = 0 then .next (s.answer (.bits (viterbi vitChoice y)) .none)
  else .refused .oddSymbolCount

/-- CONVDEC (43_viterbi.md R136). -/
def execConvdec (b : List Byte) (pattern : Bits) (n : Nat) (s : State) : Host.Outcome State Fault Refusal :=
  if depunctureEnds (bitsOf b) pattern then
    if convdecFits b pattern n then .next (s.answer (.bytes (convdec vitChoice b pattern n).toList) .none)
    else .refused .outputTooLong
  else .refused .patternKeepsNothing

/-- CONVDEC_LSF (43_viterbi.md R136, R137); the caller stores the result (log 32). -/
def execConvdecLsf (x : Bytes 46) (s : State) : Host.Outcome State Fault Refusal :=
  .next (s.answer (.bytes (convdecLsf vitChoice x).toList) .none)

/-- CONVDEC_STREAM (43_viterbi.md R136, R138); the caller stores the result (log 32). -/
def execConvdecStream (x : Bytes 46) (s : State) : Host.Outcome State Fault Refusal :=
  .next (s.answer (.bytes (convdecStream vitChoice x).toList) .none)

/-- LICH_EXTRACT (44_lich.md R150). -/
def execLichExtract (x : Bytes 46) (s : State) : Host.Outcome State Fault Refusal :=
  .next (s.answer (.bytes (lichExtract x).toList) .none)

/-- LICH_UNPACK (44_lich.md R151); GOLAY_UNCORRECTABLE or SEGNUM_INVALID when it abandons. -/
def execLichUnpack (lich : Bytes 12) (s : State) : Host.Outcome State Fault Refusal :=
  .next (s.answer (.lich (lichUnpack lich)) (lichCondition (lichUnpack lich)))

/-- LICH_ACCUMULATE (44_lich.md R157 to R159), the one unit operation that writes the Decoder State. -/
def execLichAccumulate (content : Bytes 5) (segnum : Fin 6) (s : State) : Host.Outcome State Fault Refusal :=
  .next (s.finish (accumulate content segnum s.dec).1 none (accumulate content segnum s.dec).2)

/-- LSF_VALID (44_lich.md R160). -/
def execLsfValid (l : Bytes 30) (s : State) : Host.Outcome State Fault Refusal :=
  .next (s.answer (.valid (lsfValid l)) .none)

end Sys2Proof.Machine
end

