-- ==== Sys2Proof/Machine/Dispatch.lean ====
section
/-! DEFINITION. The meaning of every operation of spec/opcode_table.json, one arm per constructor. -/

namespace Sys2Proof.Machine

def exec (i : Instr) (s : State) : Host.Outcome State Fault Refusal :=
  match i with
  | .reset => Sys2Proof.Machine.execReset s
  | .decodeFrame frame => Sys2Proof.Machine.execDecodeFrame frame s
  | .dfPreamble sync payload => Sys2Proof.Machine.execDfPreamble sync payload s
  | .dfLinkSetup sync payload => Sys2Proof.Machine.execDfLinkSetup sync payload s
  | .dfStream sync payload => Sys2Proof.Machine.execDfStream sync payload s
  | .dfUnknown sync payload => Sys2Proof.Machine.execDfUnknown sync payload s
  | .dist16 a ref => Sys2Proof.Machine.execDist16 a ref s
  | .classify a => Sys2Proof.Machine.execClassify a s
  | .decorrelate p => Sys2Proof.Machine.execDecorrelate p s
  | .deinterleave p => Sys2Proof.Machine.execDeinterleave p s
  | .bitxform p => Sys2Proof.Machine.execBitxform p s
  | .golay24Decode w => Sys2Proof.Machine.execGolay24Decode w s
  | .depuncture r pattern => Sys2Proof.Machine.execDepuncture r pattern s
  | .viterbi y => Sys2Proof.Machine.execViterbi y s
  | .convdec b pattern n => Sys2Proof.Machine.execConvdec b pattern n s
  | .convdecLsf x => Sys2Proof.Machine.execConvdecLsf x s
  | .convdecStream x => Sys2Proof.Machine.execConvdecStream x s
  | .lichExtract x => Sys2Proof.Machine.execLichExtract x s
  | .lichUnpack lich => Sys2Proof.Machine.execLichUnpack lich s
  | .lichAccumulate content segnum => Sys2Proof.Machine.execLichAccumulate content segnum s
  | .lsfValid l => Sys2Proof.Machine.execLsfValid l s

end Sys2Proof.Machine
end

