-- ==== Sys2Proof/WellFormed.lean ====
section
/-! DEFINITION. What the spec asks of an operation's operands beyond their types. The sizes of the byte
arrays and the range of SEGNUM are in the types of Syntax.lean (spec/20_memory.md R47, spec/44_lich.md
R157). -/

namespace Sys2Proof

/-- The operands meet the requirements of the operation's rule: a path's sync field is one that selects it
(30_encoding.md R62), a puncture pattern contains a 1 (00_scope.md R12), a sequence to decode has even
length (43_viterbi.md R134), and CONVDEC has enough trellis steps (43_viterbi.md R136). -/
def Instr.wf : Instr → Bool
  | .dfPreamble sync _ => Machine.classify sync == .preamble
  | .dfLinkSetup sync _ => Machine.classify sync == .linkSetup
  | .dfStream sync _ => Machine.classify sync == .stream
  | .dfUnknown sync _ => Machine.classify sync == .unknown
  | .depuncture _ pattern => pattern.any id
  | .viterbi y => y.length % 2 == 0
  | .convdec b pattern n => pattern.any id && Machine.convdecFits b pattern n
  | .reset | .decodeFrame _ => true
  | .dist16 _ _ | .classify _ | .decorrelate _ | .deinterleave _ | .bitxform _ | .golay24Decode _ => true
  | .convdecLsf _ | .convdecStream _ | .lichExtract _ | .lichUnpack _ | .lichAccumulate _ _ => true
  | .lsfValid _ => true

end Sys2Proof
end

