-- ==== Sys2Proof/Decode.lean ====
section
/-! DEFINITION. The two decoders of the block and their encoder. A command stream is decoded by its first
byte (spec/30_encoding.md R75, R76, R79); a raw frame is decoded by its sync field, nearest reference within
the threshold (R62, spec/40_classifier.md R91). Unit operations have no encoding (R78). -/

namespace Sys2Proof

/-- Why bytes are no operation. -/
inductive Reject where
  /-- There are no bytes: the host has issued nothing. -/
  | noCommand
  /-- A command code from 0x02 to 0xFF (30_encoding.md R76). -/
  | reservedCommand (code : Byte)
  /-- Fewer than 48 frame bytes behind the command byte (93_implementation_defined.md U2). -/
  | truncatedFrame (got : Nat)
  /-- The format has no encoding (30_encoding.md R78). -/
  | noEncoding
  deriving DecidableEq, Repr

/-- What a decoder answers: an operation and the bytes behind it, or why not. -/
inductive Decoded where
  | ok (i : Instr) (rest : List Byte)
  | reject (r : Reject)
  deriving DecidableEq, Repr

/-- The path a raw frame selects: the decode of the sync codebook (30_encoding.md R62). -/
def decodeSync (frame : Bytes 48) : Instr :=
  match Machine.classify (Machine.frameSync frame) with
  | .preamble => .dfPreamble (Machine.frameSync frame) (Machine.framePayload frame)
  | .linkSetup => .dfLinkSetup (Machine.frameSync frame) (Machine.framePayload frame)
  | .stream => .dfStream (Machine.frameSync frame) (Machine.framePayload frame)
  | .unknown => .dfUnknown (Machine.frameSync frame) (Machine.framePayload frame)

/-- The first 48 bytes as a frame, given to `f` with the bytes behind them (20_memory.md R47). -/
def takeFrame (bs : List Byte) (f : Bytes 48 → Instr) : Decoded :=
  if 48 ≤ bs.length then .ok (f (Machine.toBytes 48 bs)) (bs.drop 48) else .reject (.truncatedFrame bs.length)

/-- The command decoder (30_encoding.md R75, R76). -/
def decodeCommand : List Byte → Decoded
  | [] => .reject .noCommand
  | code :: bs =>
    if code = 0x00#8 then .ok .reset bs
    else if code = 0x01#8 then takeFrame bs .decodeFrame
    else .reject (.reservedCommand code)

/-- The decoder of each format of the operation table. -/
def decode (f : Format) (bs : List Byte) : Decoded :=
  match f with
  | .command => decodeCommand bs
  | .sync => takeFrame bs decodeSync
  | .unit => .reject .noEncoding

/-- The bytes of an operation in its format: the command byte and its operand (30_encoding.md R75), the 48
frame bytes of a path (R60), nothing for a unit operation (R78). -/
def encode : Instr → Option (List Byte)
  | .reset => some [0x00]
  | .decodeFrame frame => some (0x01 :: frame.toList)
  | .dfPreamble sync payload => some (sync.toList ++ payload.toList)
  | .dfLinkSetup sync payload => some (sync.toList ++ payload.toList)
  | .dfStream sync payload => some (sync.toList ++ payload.toList)
  | .dfUnknown sync payload => some (sync.toList ++ payload.toList)
  | .dist16 _ _ | .classify _ | .decorrelate _ | .deinterleave _ | .bitxform _ | .golay24Decode _ => none
  | .depuncture _ _ | .viterbi _ | .convdec _ _ _ | .convdecLsf _ | .convdecStream _ => none
  | .lichExtract _ | .lichUnpack _ | .lichAccumulate _ _ | .lsfValid _ => none

/-- How many bytes the encoding of an operation has (30_encoding.md R60, R75, R78). -/
def Instr.encodedLength : Instr → Nat
  | .reset => 1
  | .decodeFrame _ => 49
  | .dfPreamble _ _ | .dfLinkSetup _ _ | .dfStream _ _ | .dfUnknown _ _ => 48
  | .dist16 _ _ | .classify _ | .decorrelate _ | .deinterleave _ | .bitxform _ | .golay24Decode _ => 0
  | .depuncture _ _ | .viterbi _ | .convdec _ _ _ | .convdecLsf _ | .convdecStream _ => 0
  | .lichExtract _ | .lichUnpack _ | .lichAccumulate _ _ | .lsfValid _ => 0

/-- The encoding of a script: the concatenation of its operations' bytes (30_encoding.md R79). -/
def encodeScript (is : List Instr) : List Byte := is.flatMap fun i => (encode i).getD []

/-- One hexadecimal digit, upper case. -/
def hexDigit (n : Nat) : Char := "0123456789ABCDEF".toList.getD n '0'

/-- The two hexadecimal digits of a byte (30_encoding.md R79). -/
def hexByte (b : Byte) : List Char := [hexDigit (b.toNat / 16), hexDigit (b.toNat % 16)]

/-- The script line of a host operation (30_encoding.md R79). -/
def scriptLine : Instr → Option (List Char)
  | .reset => some "RESET".toList
  | .decodeFrame frame => some ("DECODE_FRAME ".toList ++ frame.toList.flatMap hexByte)
  | .dfPreamble _ _ | .dfLinkSetup _ _ | .dfStream _ _ | .dfUnknown _ _ => none
  | .dist16 _ _ | .classify _ | .decorrelate _ | .deinterleave _ | .bitxform _ | .golay24Decode _ => none
  | .depuncture _ _ | .viterbi _ | .convdec _ _ _ | .convdecLsf _ | .convdecStream _ => none
  | .lichExtract _ | .lichUnpack _ | .lichAccumulate _ _ | .lsfValid _ => none

/-- The bytes an instruction of `nbits` table bits `w` is stored as, zeros behind it: a command row is its
command byte (30_encoding.md R75); a sync row is the 16-bit SYNC, `FRAME[0]` the more significant byte, of
a frame (30_encoding.md R62; log 18). -/
def tableWordBytes (nbits w : Nat) : Option (Format × List Byte) :=
  if nbits = 8 then some (.command, BitVec.ofNat 8 w :: List.replicate 48 0)
  else if nbits = 16 then
    some (.sync, BitVec.ofNat 8 (w / 256) :: BitVec.ofNat 8 w :: List.replicate 46 0)
  else none

/-- The instruction the decoder reads from the table word `w` of `nbits` bits. -/
def decodeTableWord (nbits w : Nat) : Option Instr :=
  match tableWordBytes nbits w with
  | none => none
  | some (f, bs) =>
    match decode f bs with
    | .ok i _ => some i
    | .reject _ => none

end Sys2Proof
end

