-- ==== Sys2Proof/Machine/Fetch.lean ====
section
/-! DEFINITION. How the block takes its next operation from the host (spec/30_encoding.md R75, R76, R79):
by the command decoder, from the bytes issued. There is no program counter (spec/10_state.md R31). -/

namespace Sys2Proof.Machine

/-- What the bytes issued call for. -/
inductive Fetched where
  /-- Nothing is issued: the block is idle and keeps its state (60_exceptions.md R208, log 13). -/
  | idle
  /-- An operation, and the bytes behind it. -/
  | run (i : Instr) (rest : List Byte)
  /-- No operation: refused, the state as before (60_exceptions.md R209, log 14). -/
  | refuse (r : Refusal)
  deriving DecidableEq, Repr

/-- The next operation in the bytes issued. -/
def fetch (input : List Byte) : Fetched :=
  match decode .command input with
  | .ok i rest => .run i rest
  | .reject .noCommand => .idle
  | .reject (.reservedCommand code) => .refuse (.reservedCommand code)
  | .reject (.truncatedFrame got) => .refuse (.truncatedFrame got)
  | .reject .noEncoding => .idle

/-- The bytes that make the next step run the instruction of a table word: a command as it is; a sync field
in the frame of a DECODE_FRAME command, which is how the host reaches a path (log 18). -/
def issueBytes (nbits w : Nat) : List Byte :=
  match tableWordBytes nbits w with
  | some (.sync, bs) => 0x01 :: bs
  | some (_, bs) => bs
  | none => []

end Sys2Proof.Machine
end

