-- ==== Sys2Proof/Machine/Step.lean ====
section
/-! DEFINITION. One step of the machine: one whole operation of the host (spec/20_memory.md R50, R53), taken
from the bytes issued. -/

namespace Sys2Proof.Machine

/-- One step: take the next operation and run it whole; idle where nothing is issued; refused where the
bytes are no operation. -/
def step (s : State) : Host.Outcome State Fault Refusal :=
  match fetch s.input with
  | .idle => .next s
  | .run i rest => exec i { s with input := rest }
  | .refuse r => .refused r

/-- The state in which what the host has issued is the instruction of a table word, zeros behind it
(log 12, log 18). -/
def State.withFetchWord (s : State) (nbits w : Nat) : State := { s with input := issueBytes nbits w }

end Sys2Proof.Machine
end

