-- ==== Sys2Proof/Safety.lean ====
section
/-! DEFINITION. The terms claims are stated in: the invariants of the Decoder State (spec/10_state.md R26,
R27), a run of operations one after the other (spec/20_memory.md R53), and the transmitter the decoding
rules refer to (spec/43_viterbi.md R130, R140, spec/42_golay.md R116, spec/41_bit_transform.md R105), which
is no part of the block (spec/00_scope.md R4). -/

namespace Sys2Proof.Machine

/-- Between operations the bitmap is not complete, and the bytes of a segment whose bit is clear are zero
(10_state.md R26, R27). -/
abbrev Decoder.Inv (d : Decoder) : Prop :=
  d.segmap ≠ 0x3F#6 ∧
    ∀ n : Fin 6, d.segmap.getLsbD n.val = false → ∀ k < 5, byteAt d.lsfScratch (5 * n.val + k) = 0

/-- Operations one after the other, each from the state the one before left (20_memory.md R53). -/
def runOps : List Instr → State → Host.Outcome State Fault Refusal
  | [], s => .next s
  | i :: is, s =>
    match exec i s with
    | .next t => runOps is t
    | .fault r => .fault r
    | .refused r => .refused r

/-- Segment `n` of a Link Setup Frame, bytes `5n` to `5n+4` (30_encoding.md R71). -/
def segmentOf (l : Bytes 30) (n : Fin 6) : Bytes 5 := slice l (5 * n.val) 5

/-- The coded and punctured bits of a payload and its four flush bits (43_viterbi.md R130). -/
def txCoded (pattern : Bits) (data : List Byte) : Bits :=
  puncture pattern (enc (bitsOf data ++ List.replicate 4 false))

/-- The inverse of BITXFORM, which a transmitter applies (41_bit_transform.md R105). -/
def txTransform (x : Bytes 46) : Bytes 46 := decorrelate (deinterleave x)

/-- The raw payload of a link-setup frame that carries `l`. -/
def txLinkSetup (l : Bytes 30) : Bytes 46 := txTransform (packBits 46 (txCoded punctLsf l.toList))

/-- The three bytes of a codeword, the first the most significant (30_encoding.md R64). -/
def codewordBytes (w : BitVec 24) : List Byte := [w.extractLsb' 16 8, w.extractLsb' 8 8, w.extractLsb' 0 8]

/-- The raw payload of a stream frame with the given LICH codewords that carries the stream bytes `b`. -/
def txStream (w0 w1 w2 w3 : BitVec 24) (b : Bytes 18) : Bytes 46 :=
  txTransform (toBytes 46 (codewordBytes w0 ++ codewordBytes w1 ++ codewordBytes w2 ++ codewordBytes w3 ++
    (packBits 34 (txCoded punctStream b.toList)).toList))

end Sys2Proof.Machine
end

