-- ==== Sys2Proof/Certificates/Slice0/Obligations.lean ====
section
/-! DEFINITION. The statements for the provers, each with the rule of spec/ it formalises. "log n" is
notes/assumptions/n.md. -/

open Sys2Proof Sys2Proof.Machine

/-- From every state RESET answers a next state whose bitmap is 0 and whose scratch LSF, adopted LSF and
stream frame are all zero bytes, which is the Decoder State of State.reset; it returns nothing and
leaves the input alone. Formalises R170, R37, R38. -/
def Obligations.ResetZeroesEveryComponent : Prop :=
  ∀ s : State, ∃ t, exec .reset s = .next t ∧ t.dec.segmap = 0 ∧
    (∀ j < 30, byteAt t.dec.lsfScratch j = 0) ∧ (∀ j < 30, byteAt t.dec.lsf j = 0) ∧
    (∀ j < 18, byteAt t.dec.stream j = 0) ∧ t.dec = State.reset.dec ∧ t.result = none ∧ t.input = s.input

/-- At State.reset the bitmap is not complete and every segment whose bit is clear has zero bytes in the
scratch LSF. Derived from 10_state.md section 2 (R26, R27). -/
def Obligations.ResetStateMeetsTheStateInvariant : Prop :=
  State.reset.dec.Inv

/-- For every state that meets the invariant (the bitmap is never 0x3F; the bytes of a segment whose bit is
clear are zero), reached or not, if a step answers a next state, that state meets it. Derived from
10_state.md section 2 (R26, R27). -/
def Obligations.EveryStepKeepsTheStateInvariant : Prop :=
  ∀ s t : State, s.dec.Inv → step s = .next t → t.dec.Inv

/-- For every operation and every state that meets the invariant, if the operation answers a next state,
that state meets it. Derived from 10_state.md section 2 (R26, R27). -/
def Obligations.EveryOperationKeepsTheStateInvariant : Prop :=
  ∀ (i : Instr) (s t : State), s.dec.Inv → exec i s = .next t → t.dec.Inv

/-- For every frame and state DECODE_FRAME answers a next state; the result is the type CLASSIFY gives the
sync field; the Decoder State is that of the path of this type on the transformed payload; and it is the
meaning of the path row that the sync field selects. Formalises R171. -/
def Obligations.DecodeFrameRunsThePathItsSyncFieldSelects : Prop :=
  ∀ (frame : Bytes 48) (s : State), ∃ t, exec (.decodeFrame frame) s = .next t ∧ t.input = s.input ∧
    t.result = some (.frameType (classify (frameSync frame))) ∧
    (classify (frameSync frame) = .linkSetup →
      t.dec = { s.dec with lsf := convdecLsf vitChoice (bitxform (framePayload frame)) }) ∧
    (classify (frameSync frame) = .stream →
      t.dec = (streamPath vitChoice (bitxform (framePayload frame)) s.dec).1) ∧
    (classify (frameSync frame) = .preamble → t.dec = s.dec) ∧
    (classify (frameSync frame) = .unknown → t.dec = s.dec) ∧
    exec (.decodeFrame frame) s = exec (decodeSync frame) s

/-- For every sync field, payload and state the path answers the next state that differs in LSF alone, which
is CONVDEC_LSF of the transformed payload whatever LSF_VALID says of it; the host port holds the type
LINK_SETUP and no condition. (That the row stands alone as an operation and does not look at its sync
operand again is the model's choice, log 17.) Derived from 45_frame_decoder.md, path LINK_SETUP (R173),
notes/assumptions/17.md. -/
def Obligations.LinkSetupPathWritesTheAdoptedLsfAlone : Prop :=
  ∀ (sync : Bytes 2) (payload : Bytes 46) (s : State),
    exec (.dfLinkSetup sync payload) s = .next
      { s with
        dec := { s.dec with lsf := convdecLsf vitChoice (bitxform payload) }
        result := some (.frameType .linkSetup)
        condition := .none }

/-- For every sync field, payload and state the path answers a next state whose STREAM is CONVDEC_STREAM of
the transformed payload. If the LICH field unpacks to a segment, the rest of the Decoder State is what
LICH_ACCUMULATE of that segment leaves; otherwise it is unchanged. (That the row stands alone as an
operation and does not look at its sync operand again is the model's choice, log 17.) Derived from
45_frame_decoder.md, path STREAM (R174), notes/assumptions/17.md. -/
def Obligations.StreamPathAccumulatesThenDecodesTheStreamBytes : Prop :=
  ∀ (sync : Bytes 2) (payload : Bytes 46) (s : State), ∃ t, exec (.dfStream sync payload) s = .next t ∧
    t.input = s.input ∧ t.result = some (.frameType .stream) ∧
    t.dec.stream = convdecStream vitChoice (bitxform payload) ∧
    (∀ content n, lichUnpack (lichExtract (bitxform payload)) = .segment content n →
      ∃ u, exec (.lichAccumulate content n) s = .next u ∧ t.dec.lsf = u.dec.lsf ∧
        t.dec.lsfScratch = u.dec.lsfScratch ∧ t.dec.segmap = u.dec.segmap ∧ t.condition = u.condition) ∧
    ((∀ content n, lichUnpack (lichExtract (bitxform payload)) ≠ .segment content n) →
      t.dec.lsf = s.dec.lsf ∧ t.dec.lsfScratch = s.dec.lsfScratch ∧ t.dec.segmap = s.dec.segmap)

/-- For every sync field, payload and state both paths answer the next state that differs only in the host
port: the type returned, and for UNKNOWN the condition SYNC_MISMATCH. (That the rows stand alone as
operations and do not look at their sync operand again is the model's choice, log 17.) Derived from
45_frame_decoder.md, paths PREAMBLE and UNKNOWN (R175, R176), notes/assumptions/17.md. -/
def Obligations.PreambleAndUnknownPathsChangeNothing : Prop :=
  ∀ (sync : Bytes 2) (payload : Bytes 46) (s : State),
    exec (.dfPreamble sync payload) s =
      .next { s with result := some (.frameType .preamble), condition := .none } ∧
    exec (.dfUnknown sync payload) s =
      .next { s with result := some (.frameType .unknown), condition := .syncMismatch }

/-- For all two-byte operands DIST16 completes and answers the number of the 16 bit positions in which they
differ: at most 16, 0 exactly on equal operands, 16 exactly on complements. The function is symmetric,
obeys the triangle inequality and the parity law. Formalises R90. -/
def Obligations.DistanceCountsDifferingSyncBits : Prop :=
  (∀ (a b : Bytes 2) (s : State), ∃ d,
    exec (.dist16 a b) s = .next { s with result := some (.distance d), condition := .none } ∧
    d = ((List.range 16).filter fun p => getbit a p != getbit b p).length ∧ d ≤ 16 ∧
    (d = 0 ↔ a = b) ∧ (d = 16 ↔ ∀ p < 16, getbit a p = !getbit b p)) ∧
  ∀ a b c : Bytes 2, dist16 a b = dist16 b a ∧ dist16 a c ≤ dist16 a b + dist16 b c ∧
    (dist16 c a + dist16 c b) % 2 = dist16 a b % 2

/-- For every sync field CLASSIFY completes; the type is UNKNOWN exactly when all three distances exceed the
threshold, and otherwise the earliest reference at the least distance; SYNC_MISMATCH is noted exactly
for UNKNOWN. Formalises R91. -/
def Obligations.ClassifyTakesTheNearestReferenceWithinTheThreshold : Prop :=
  ∀ (a : Bytes 2) (s : State), ∃ ty,
    exec (.classify a) s = .next
      { s with
        result := some (.frameType ty)
        condition := if ty = .unknown then .syncMismatch else .none } ∧
    (ty = .unknown ↔ syncThreshold < dist16 a syncRefPreamble ∧ syncThreshold < dist16 a syncRefLinkSetup ∧
      syncThreshold < dist16 a syncRefStream) ∧
    (ty = .preamble ↔ dist16 a syncRefPreamble ≤ syncThreshold ∧
      dist16 a syncRefPreamble ≤ dist16 a syncRefLinkSetup ∧
      dist16 a syncRefPreamble ≤ dist16 a syncRefStream) ∧
    (ty = .linkSetup ↔ dist16 a syncRefLinkSetup ≤ syncThreshold ∧
      dist16 a syncRefLinkSetup < dist16 a syncRefPreamble ∧
      dist16 a syncRefLinkSetup ≤ dist16 a syncRefStream) ∧
    (ty = .stream ↔ dist16 a syncRefStream ≤ syncThreshold ∧
      dist16 a syncRefStream < dist16 a syncRefPreamble ∧ dist16 a syncRefStream < dist16 a syncRefLinkSetup)

/-- At the default reference words and threshold, which are general knowledge, UNVERIFIED (log 1), every
reference word is at distance 0 from itself and classifies as its type. Derived from 40_classifier.md,
exact matches (R94), notes/assumptions/1.md. -/
def Obligations.ExactSyncWordsClassifyAtDistanceZero : Prop :=
  (dist16 syncRefPreamble syncRefPreamble = 0 ∧ classify syncRefPreamble = .preamble) ∧
  (dist16 syncRefLinkSetup syncRefLinkSetup = 0 ∧ classify syncRefLinkSetup = .linkSetup) ∧
  (dist16 syncRefStream syncRefStream = 0 ∧ classify syncRefStream = .stream)

/-- For every payload DECORRELATE answers 46 bytes, byte i being payload byte i exclusive-or DECORR_SEQ byte
i, and writes no state. Formalises R100. -/
def Obligations.DecorrelateXorsEveryPayloadByte : Prop :=
  ∀ (p : Bytes 46) (s : State), ∃ q : Bytes 46,
    exec (.decorrelate p) s = .next { s with result := some (.bytes q.toList), condition := .none } ∧
    ∀ i < 46, byteAt q i = byteAt p i ^^^ byteAt decorrSeq i

/-- For every 46-byte payload, decorrelating twice and deinterleaving twice give the payload back.
Formalises R101, R104. -/
def Obligations.BothBitTransformsAreInvolutions : Prop :=
  ∀ p : Bytes 46, decorrelate (decorrelate p) = p ∧ deinterleave (deinterleave p) = p

/-- For every payload DEINTERLEAVE answers 46 bytes whose bit INTL_PI(i) is bit i of the payload, for every
i from 0 to 367, and writes no state. Formalises R103. -/
def Obligations.DeinterleaveMovesEachBitToItsPlace : Prop :=
  ∀ (p : Bytes 46) (s : State), ∃ q : Bytes 46,
    exec (.deinterleave p) s = .next { s with result := some (.bytes q.toList), condition := .none } ∧
    ∀ i < 368, intlPi i < 368 ∧ getbit q (intlPi i) = getbit p i

/-- For every payload BITXFORM answers DEINTERLEAVE(DECORRELATE(P)) and writes no state;
DECORRELATE(DEINTERLEAVE(X)) is its inverse on both sides; and it is not an involution. Formalises R105. -/
def Obligations.BitTransformIsABijectionButNoInvolution : Prop :=
  (∀ (p : Bytes 46) (s : State), ∃ x : Bytes 46,
    exec (.bitxform p) s = .next { s with result := some (.bytes x.toList), condition := .none } ∧
    x = deinterleave (decorrelate p) ∧ decorrelate (deinterleave x) = p) ∧
  (∀ x : Bytes 46, bitxform (decorrelate (deinterleave x)) = x) ∧ ∃ p : Bytes 46, bitxform (bitxform p) ≠ p

/-- For every payload and every position p below 368, the transformed payload of the payload with bit p
inverted differs from that of the payload in bit INTL_PI(p) and nowhere else. Derived from
41_bit_transform.md, a single flipped bit (R109). -/
def Obligations.FlippedPayloadBitMovesToOneTransformedBit : Prop :=
  ∀ (a : Bytes 46) (p q : Nat), p < 368 → q < 368 →
    getbit (bitxform (setbit a p (!getbit a p))) q =
      if q = intlPi p then !getbit (bitxform a) q else getbit (bitxform a) q

/-- For every 24-bit word the operation completes and writes no state; an answer Ok(v) has the codeword of v
within distance GOLAY_T of the word, over all 4096 codewords there is none exactly when the answer is
UNCORRECTABLE, which is when the condition is noted. Formalises R118. -/
def Obligations.GolayDecodeIsBoundedDistanceDecoding : Prop :=
  ∀ (w : BitVec 24) (s : State), ∃ r,
    exec (.golay24Decode w) s = .next
      { s with
        result := some (.golay r)
        condition := if r = .uncorrectable then .golayUncorrectable none else .none } ∧
    (∀ v, r = .ok v → popcount (w ^^^ golayEncode v) ≤ golayT) ∧
    (r = .uncorrectable ↔ ∀ v, golayT < popcount (w ^^^ golayEncode v))

/-- For every 24-bit word, decoding by the syndromes of the 2325 error patterns of weight at most 3 gives
what the bounded-distance search gives. It rests on the minimum distance 8 of the default GOLAY_P, which
is general knowledge, UNVERIFIED (log 4). Derived from 42_golay.md, the table form (R123),
notes/assumptions/4.md. -/
def Obligations.GolayTableFormComputesTheSameFunction : Prop :=
  ∀ w : BitVec 24, golay24DecodeTable w = golay24Decode w

/-- For every data word and every error pattern anywhere among the 24 bits, at most three errors decode to
the data and exactly four give UNCORRECTABLE. It rests on the minimum distance 8 of the default GOLAY_P,
which is general knowledge, UNVERIFIED (log 4). Derived from 42_golay.md, behaviour by the number of bit
errors and left-inverse (R119, R120, R121), notes/assumptions/4.md. -/
def Obligations.GolayCorrectsThreeErrorsAndReportsFour : Prop :=
  ∀ (d : BitVec 12) (e : BitVec 24),
    (popcount e ≤ 3 → golay24Decode (golayEncode d ^^^ e) = .ok d) ∧
    (popcount e = 4 → golay24Decode (golayEncode d ^^^ e) = .uncorrectable)

/-- A 24-bit word has syndrome 0 exactly when it is the codeword of some data word; the syndrome of an
exclusive or is the exclusive or of the syndromes, and the same for the encoding. Derived from
42_golay.md, the code, syndrome and codeword test (R116, R117). -/
def Obligations.GolaySyndromeTestsCodewordsLinearly : Prop :=
  (∀ w : BitVec 24, golaySyndrome w = 0 ↔ ∃ d, golayEncode d = w) ∧
  (∀ a b : BitVec 24, golaySyndrome (a ^^^ b) = golaySyndrome a ^^^ golaySyndrome b) ∧
  ∀ a b : BitVec 12, golayEncode (a ^^^ b) = golayEncode a ^^^ golayEncode b

/-- When there is nothing to place or the pattern contains a 1, DEPUNCTURE answers a sequence of even
length: one erasure exactly at each position the pattern omits, the received bits in order at the
others, ending with the last received bit, then one erasure more if the count is odd. It writes no
state. Formalises R132. -/
def Obligations.DepuncturePlacesReceivedBitsAndErasures : Prop :=
  ∀ (r pattern : Bits) (s : State), r = [] ∨ true ∈ pattern → ∃ y0 y : List Sym,
    exec (.depuncture r pattern) s = .next { s with result := some (.symbols y), condition := .none } ∧
    (y = y0 ∧ y0.length % 2 = 0 ∨ y = y0 ++ [.erased] ∧ y0.length % 2 = 1) ∧
    (∀ i, i < y0.length → (y0[i]? = some .erased ↔ pattern[i % pattern.length]? ≠ some true)) ∧
    (y0.filterMap fun x => match x with | .bit b => some b | .erased => none) = r ∧
    y0.getLast? ≠ some .erased

/-- Bits to place with a pattern without a 1, a sequence of odd length, and an output longer than the
decoded bits are refused, each by a name of its own. That these operands are refused is the model's
choice (log 20). Derived from 43_viterbi.md (R132, R134, R136), notes/assumptions/20.md. -/
def Obligations.OperandsOutsideTheirRuleAreRefused : Prop :=
  (∀ (r pattern : Bits) (s : State), r ≠ [] → true ∉ pattern →
    exec (.depuncture r pattern) s = .refused .patternKeepsNothing) ∧
  (∀ (y : List Sym) (s : State), y.length % 2 = 1 → exec (.viterbi y) s = .refused .oddSymbolCount) ∧
  (∀ (b : List Byte) (pattern : Bits) (n : Nat) (s : State), b ≠ [] → true ∉ pattern →
    exec (.convdec b pattern n) s = .refused .patternKeepsNothing) ∧
  (∀ (b : List Byte) (pattern : Bits) (n : Nat) (s : State), b = [] ∨ true ∈ pattern →
    (depuncture (bitsOf b) pattern).length / 2 < 8 * n →
    exec (.convdec b pattern n) s = .refused .outputTooLong)

/-- For every sequence of even length VITERBI answers one bit per pair of symbols and writes no state. Where
VIT_END is free or there are at least four steps, so that R134 says what ADM is, the answer is
admissible and costs no more than any admissible sequence; and the survivor algorithm does so for every
choice of VIT_END and VIT_TIE. Formalises R134. -/
def Obligations.ViterbiAnswersAMostLikelySequence : Prop :=
  (∀ (y : List Sym) (s : State), y.length % 2 = 0 → ∃ u,
    exec (.viterbi y) s = .next { s with result := some (.bits u), condition := .none } ∧
    2 * u.length = y.length ∧ (Config.vitEnd = .free ∨ 8 ≤ y.length → MostLikely Config.vitEnd y u)) ∧
  ∀ (c : VitChoice) (y : List Sym), y.length % 2 = 0 → c.vend = .free ∨ 8 ≤ y.length →
    MostLikely c.vend y (viterbi c y)

/-- For every even sequence of fewer than eight symbols and every tie-break, decoding with VIT_END zero
gives as many zero bits as there are steps. That ADM is so read for fewer than four steps is the model's
inference (log 11). Derived from 43_viterbi.md, the survivor algorithm (R142), notes/assumptions/11.md. -/
def Obligations.ShortSequencesEndingInStateZeroDecodeToZeros : Prop :=
  ∀ (tie : List Sym → Nat → Nat → Bool) (y : List Sym), y.length % 2 = 0 → y.length < 8 →
    viterbi ⟨.zero, tie⟩ y = List.replicate (y.length / 2) false

/-- For either VIT_END, every even sequence and every admissible sequence of least cost, there is a
tie-break under which the model answers that sequence: the open function leaves out no result the
relation admits. (For fewer than four steps ADM under zero is read as log 11 says.) Derived from
43_viterbi.md, what R134 leaves open (R135), notes/assumptions/10.md, notes/assumptions/11.md. -/
def Obligations.ViterbiChoiceAdmitsEveryMostLikelySequence : Prop :=
  ∀ (e : VitEnd) (y : List Sym) (u : Bits), y.length % 2 = 0 → MostLikely e y u →
    ∃ tie, viterbi ⟨e, tie⟩ y = u

/-- For every input sequence that ends in four zero bits, encoding, puncturing, depuncturing and decoding
with either default pattern gives the sequence back for every VIT_END and every tie-break. Derived from
43_viterbi.md, exactness without errors (R140), notes/assumptions/5.md, notes/assumptions/6.md. -/
def Obligations.ErrorFreeStreamDecodesToWhatWasSent : Prop :=
  ∀ (c : VitChoice) (u : Bits), 4 ≤ u.length → (∀ b ∈ u.drop (u.length - 4), b = false) →
    viterbi c (depuncture (puncture punctLsf (enc u)) punctLsf) = u ∧
    viterbi c (depuncture (puncture punctStream (enc u)) punctStream) = u

/-- When the pattern contains a 1 (or there is nothing to place) and the depunctured stream has at least 8n
steps, CONVDEC answers n bytes; bit-string position k is bit k of what VITERBI answers on the
depunctured stream. It writes no state. Formalises R136. -/
def Obligations.ConvdecPacksTheFirstDecodedBits : Prop :=
  ∀ (b : List Byte) (pattern : Bits) (n : Nat) (s : State), b = [] ∨ true ∈ pattern →
    8 * n ≤ (depuncture (bitsOf b) pattern).length / 2 → ∃ (out : Bytes n) (u : Bits),
    exec (.convdec b pattern n) s = .next { s with result := some (.bytes out.toList), condition := .none } ∧
    exec (.viterbi (depuncture (bitsOf b) pattern)) s =
      .next { s with result := some (.bits u), condition := .none } ∧
    u.length = (depuncture (bitsOf b) pattern).length / 2 ∧
    ∀ k < 8 * n, u[k]? = some (getbit out k)

/-- For every transformed payload CONVDEC_LSF is CONVDEC of all 46 bytes with PUNCT_LSF to 30 bytes, over
488 symbols; CONVDEC_STREAM is CONVDEC of the bytes behind the first 12 with PUNCT_STREAM to 18 bytes,
over 296 symbols; both complete and write no state; an all-zero stream gives zero bytes under every
choice. (That they leave the storing to their caller, against the table of R48, is log 32.) Derived from
43_viterbi.md, CONVDEC and its two instances (R136, R137, R138), 10_state.md, every unit is pure but
LICH_ACCUMULATE (R34), notes/assumptions/32.md. -/
def Obligations.ConvdecInstancesTakeTheirPartOfThePayload : Prop :=
  (∀ (x : Bytes 46) (s : State),
    exec (.convdecLsf x) s = exec (.convdec x.toList punctLsf 30) s ∧
    exec (.convdecStream x) s = exec (.convdec (x.toList.drop 12) punctStream 18) s ∧
    (∃ out : Bytes 30,
      exec (.convdecLsf x) s = .next { s with result := some (.bytes out.toList), condition := .none }) ∧
    (∃ out : Bytes 18,
      exec (.convdecStream x) s = .next { s with result := some (.bytes out.toList), condition := .none }) ∧
    (depuncture (bitsOf x.toList) punctLsf).length = 488 ∧
    (depuncture (bitsOf (x.toList.drop 12)) punctStream).length = 296) ∧
  ∀ c : VitChoice, convdecLsf c (zeroBytes 46) = zeroBytes 30 ∧
    ∀ x : Bytes 46, (∀ i < 46, 12 ≤ i → byteAt x i = 0) → convdecStream c x = zeroBytes 18

/-- For every transformed payload LICH_EXTRACT answers its first 12 bytes and writes no state. Formalises
R150. -/
def Obligations.LichExtractTakesTheFirstTwelveBytes : Prop :=
  ∀ (x : Bytes 46) (s : State), exec (.lichExtract x) s =
    .next { s with result := some (.bytes (x.toList.take 12)), condition := .none }

/-- For every LICH field the operation completes and writes no state. Each sub-block is read big-endian. If
some sub-block is uncorrectable, the outcome names the first such; if all four decode, the 48-bit
concatenation of their values gives the 5 content bytes and the number in bits 7 to 5 of its last byte,
a segment for 0 to 5 and an abandonment for 6 and 7. Formalises R151. -/
def Obligations.LichUnpackChecksAllCodewordsBeforeTheNumber : Prop :=
  ∀ (lich : Bytes 12) (s : State), ∃ r,
    exec (.lichUnpack lich) s = .next { s with result := some (.lich r), condition := lichCondition r } ∧
    ∃ w : Fin 4 → BitVec 24,
    (∀ i : Fin 4, (w i).toNat = (byteAt lich (3 * i.val)).toNat * 65536 +
      (byteAt lich (3 * i.val + 1)).toNat * 256 + (byteAt lich (3 * i.val + 2)).toNat) ∧
    (∀ i : Fin 4, golay24Decode (w i) = .uncorrectable →
      (∀ j : Fin 4, j < i → golay24Decode (w j) ≠ .uncorrectable) → r = .golayUncorrectable i) ∧
    ∀ v0 v1 v2 v3 : BitVec 12, golay24Decode (w 0) = .ok v0 → golay24Decode (w 1) = .ok v1 →
      golay24Decode (w 2) = .ok v2 → golay24Decode (w 3) = .ok v3 →
      ∃ seg : BitVec 48, seg = (v0 ++ v1) ++ (v2 ++ v3) ∧
        (∀ h : (seg.extractLsb' 5 3).toNat < 6, ∃ content : Bytes 5,
          r = .segment content ⟨(seg.extractLsb' 5 3).toNat, h⟩ ∧
          ∀ k < 5, byteAt content k = seg.extractLsb' (40 - 8 * k) 8) ∧
        (6 ≤ (seg.extractLsb' 5 3).toNat → r = .segnumInvalid (seg.extractLsb' 5 3))

/-- For all four 12-bit values, segment byte k is bits 47-8k to 40-8k of their 48-bit concatenation, and the
segment number is bits 7 to 5 of the fourth value. Formalises R153. -/
def Obligations.SegmentIsTheConcatenationOfTheFourValues : Prop :=
  ∀ (v0 v1 v2 v3 : BitVec 12) (seg : BitVec 48), seg = (v0 ++ v1) ++ (v2 ++ v3) →
    (∀ k < 6, byteAt (packSegment v0 v1 v2 v3) k = seg.extractLsb' (40 - 8 * k) 8) ∧
    segNumber (packSegment v0 v1 v2 v3) = v3.extractLsb' 5 3

/-- For every content, number and state the operation answers a next state. The candidate is the scratch LSF
with bytes 5n to 5n+4 replaced. While the bitmap with bit n set is not 0x3F, the candidate and the
bitmap are kept and nothing else changes; when it is 0x3F, bitmap and scratch become zero, LSF becomes
the candidate if LSF_VALID holds of it and keeps its value if not. STREAM never changes. Formalises
R157, R158, R159. -/
def Obligations.LichAccumulateCopiesMarksAndCompletes : Prop :=
  ∀ (content : Bytes 5) (n : Fin 6) (s : State), ∃ (t : State) (cand : Bytes 30),
    exec (.lichAccumulate content n) s = .next t ∧ t.input = s.input ∧
    (∀ k < 5, byteAt cand (5 * n.val + k) = byteAt content k) ∧
    (∀ j < 30, j < 5 * n.val ∨ 5 * n.val + 5 ≤ j → byteAt cand j = byteAt s.dec.lsfScratch j) ∧
    (s.dec.segmap ||| (1#6 <<< n.val) ≠ 0x3F#6 →
      t.dec = { s.dec with lsfScratch := cand, segmap := s.dec.segmap ||| (1#6 <<< n.val) } ∧
      t.condition = .none) ∧
    (s.dec.segmap ||| (1#6 <<< n.val) = 0x3F#6 →
      t.dec.segmap = 0 ∧ (∀ j < 30, byteAt t.dec.lsfScratch j = 0) ∧
      t.dec.lsf = (if lsfValid cand then cand else s.dec.lsf) ∧ t.dec.stream = s.dec.stream ∧
      t.condition = if lsfValid cand then .none else .lsfInvalid)

/-- From every state whose bitmap is not complete (the invariant R26) and has bit n set, LICH_ACCUMULATE of
segment n answers a next state with the same bitmap, LSF and STREAM, the 5 bytes of the later copy and
the other scratch bytes as before; with equal content the Decoder State does not change at all.
Formalises R161. -/
def Obligations.RepeatedSegmentOverwritesItsBytesOnly : Prop :=
  ∀ (content : Bytes 5) (n : Fin 6) (s : State), s.dec.segmap ≠ 0x3F#6 → s.dec.segmap.getLsbD n.val = true →
    ∃ t, exec (.lichAccumulate content n) s = .next t ∧ t.dec.segmap = s.dec.segmap ∧
      t.dec.lsf = s.dec.lsf ∧ t.dec.stream = s.dec.stream ∧
      (∀ k < 5, byteAt t.dec.lsfScratch (5 * n.val + k) = byteAt content k) ∧
      (∀ j < 30, j < 5 * n.val ∨ 5 * n.val + 5 ≤ j → byteAt t.dec.lsfScratch j = byteAt s.dec.lsfScratch j) ∧
      ((∀ k < 5, byteAt s.dec.lsfScratch (5 * n.val + k) = byteAt content k) → t.dec = s.dec)

/-- From every state with an empty bitmap, delivering the segments of a 30-byte LSF in any order and with
any repeats, the last one the sixth distinct, completes; bitmap and scratch are empty afterwards, STREAM
is unchanged, and LSF is exactly the delivered content if it satisfies LSF_VALID and unchanged if not.
Formalises R162. -/
def Obligations.SixSegmentsInAnyOrderRebuildTheLsf : Prop :=
  ∀ (l : Bytes 30) (s : State) (order : List (Fin 6)) (last : Fin 6), s.dec.segmap = 0 → last ∉ order →
    (∀ n, n ≠ last → n ∈ order) →
    ∃ t, runOps ((order ++ [last]).map fun n => .lichAccumulate (segmentOf l n) n) s = .next t ∧
      t.dec.lsf = (if lsfValid l then l else s.dec.lsf) ∧ t.dec.segmap = 0 ∧
      (∀ j < 30, byteAt t.dec.lsfScratch j = 0) ∧ t.dec.stream = s.dec.stream

/-- From every state with an empty bitmap, delivering segments of a 30-byte LSF in any order, one number
never among them, completes with LSF and STREAM unchanged, exactly the delivered numbers marked, and
their bytes in place. Derived from 44_lich.md, what a failed segment costs (R164). -/
def Obligations.MissingSegmentLeavesTheOthersMarked : Prop :=
  ∀ (l : Bytes 30) (s : State) (order : List (Fin 6)) (missing : Fin 6), s.dec.segmap = 0 → missing ∉ order →
    ∃ t, runOps (order.map fun n => .lichAccumulate (segmentOf l n) n) s = .next t ∧
      t.dec.lsf = s.dec.lsf ∧ t.dec.stream = s.dec.stream ∧
      (∀ n : Fin 6, t.dec.segmap.getLsbD n.val = true ↔ n ∈ order) ∧
      ∀ n ∈ order, ∀ k < 5, byteAt t.dec.lsfScratch (5 * n.val + k) = byteAt l (5 * n.val + k)

/-- For every 30 bytes LSF_VALID answers whether the check over bytes 0 to 27 equals bytes 28 and 29 read
big-endian, which holds exactly when the check over all 30 bytes is 0; it writes no state. The predicate
is the default, general knowledge, UNVERIFIED (log 8). Derived from 44_lich.md, LSF_VALID and its
equivalent form (R160), notes/assumptions/8.md. -/
def Obligations.LsfValidIsAVanishingCheckOverAllBytes : Prop :=
  ∀ (l : Bytes 30) (s : State), ∃ b,
    exec (.lsfValid l) s = .next { s with result := some (.valid b), condition := .none } ∧
    (b = true ↔ (crc16 (l.toList.take 28)).toNat = (byteAt l 28).toNat * 256 + (byteAt l 29).toNat) ∧
    (b = true ↔ crc16 l.toList = 0)

/-- For every operation and state: if the operation answers a next state with another LSF, it is RESET, or
the LINK_SETUP path, or DECODE_FRAME of a frame classified LINK_SETUP, or it accumulated a segment
(LICH_ACCUMULATE, or the STREAM path or DECODE_FRAME of a frame classified STREAM whose LICH field
unpacks to it) with which the bitmap was 0x3F: then the new LSF is the reassembled candidate, satisfies
LSF_VALID, and bitmap and scratch are empty. DF.LINK_SETUP leaves the reassembly as it was; so does
DECODE_FRAME of a frame classified LINK_SETUP, which completes with LSF decoded from the payload alone.
Formalises R29. -/
def Obligations.OnlyThreeThingsWriteTheAdoptedLsf : Prop :=
  (∀ (i : Instr) (s t : State), exec i s = .next t → t.dec.lsf ≠ s.dec.lsf →
    i = .reset ∨ (∃ sync payload, i = .dfLinkSetup sync payload) ∨
    (∃ frame, i = .decodeFrame frame ∧ classify (frameSync frame) = .linkSetup) ∨
    ∃ content n,
      (i = .lichAccumulate content n ∨
        (∃ sync payload, i = .dfStream sync payload ∧
          lichUnpack (lichExtract (bitxform payload)) = .segment content n) ∨
        (∃ frame, i = .decodeFrame frame ∧ classify (frameSync frame) = .stream ∧
          lichUnpack (lichExtract (bitxform (framePayload frame))) = .segment content n)) ∧
      s.dec.segmap ||| (1#6 <<< n.val) = 0x3F#6 ∧
      t.dec.lsf = copySegment s.dec.lsfScratch content n ∧ lsfValid t.dec.lsf = true ∧
      t.dec.segmap = 0 ∧ ∀ j < 30, byteAt t.dec.lsfScratch j = 0) ∧
  (∀ (sync : Bytes 2) (payload : Bytes 46) (s t : State), exec (.dfLinkSetup sync payload) s = .next t →
    t.dec.segmap = s.dec.segmap ∧ t.dec.lsfScratch = s.dec.lsfScratch) ∧
  ∀ (frame : Bytes 48) (s : State), classify (frameSync frame) = .linkSetup →
    ∃ t, exec (.decodeFrame frame) s = .next t ∧
      t.dec.lsf = convdecLsf vitChoice (bitxform (framePayload frame)) ∧
      t.dec.segmap = s.dec.segmap ∧ t.dec.lsfScratch = s.dec.lsfScratch

/-- For every operation and state: if the operation answers a next state with another STREAM, it is RESET,
the STREAM path or DECODE_FRAME of a frame classified STREAM; if with another scratch LSF or bitmap, one
of these or LICH_ACCUMULATE. Derived from 10_state.md section 1 and section 4 (R22, R23, R24, R36). -/
def Obligations.OtherComponentsHaveOnlyTheirOwnWriters : Prop :=
  ∀ (i : Instr) (s t : State), exec i s = .next t →
    (t.dec.stream ≠ s.dec.stream →
      i = .reset ∨ (∃ sync payload, i = .dfStream sync payload) ∨
      ∃ frame, i = .decodeFrame frame ∧ classify (frameSync frame) = .stream) ∧
    (t.dec.lsfScratch ≠ s.dec.lsfScratch ∨ t.dec.segmap ≠ s.dec.segmap →
      i = .reset ∨ (∃ content n, i = .lichAccumulate content n) ∨
      (∃ sync payload, i = .dfStream sync payload) ∨
      ∃ frame, i = .decodeFrame frame ∧ classify (frameSync frame) = .stream)

/-- LICH_ACCUMULATE that does not complete the bitmap leaves it or-ed with its bit. For every operation and
state, if the operation answers a next state, its bitmap is 0 or contains every bit that was set.
Formalises R158. -/
def Obligations.SegmentBitsAreOnlyClearedTogether : Prop :=
  (∀ (content : Bytes 5) (n : Fin 6) (s : State), s.dec.segmap ||| (1#6 <<< n.val) ≠ 0x3F#6 →
    ∃ t, exec (.lichAccumulate content n) s = .next t ∧ t.dec.segmap = s.dec.segmap ||| (1#6 <<< n.val)) ∧
  ∀ (i : Instr) (s t : State), exec i s = .next t →
    t.dec.segmap = 0 ∨ ∀ n < 6, s.dec.segmap.getLsbD n = true → t.dec.segmap.getLsbD n = true

/-- For every operation of the unit format other than LICH_ACCUMULATE, if it answers a next state, the
Decoder State, every byte of it, and the input are unchanged. (The byte port is the model's, log 12;
that CONVDEC_LSF and CONVDEC_STREAM leave the storing to their caller, against the table of R48, is log
32.) Derived from 10_state.md, every unit is pure but LICH_ACCUMULATE (R34), 43_viterbi.md, state
written by CONVDEC itself (R136), notes/assumptions/12.md, notes/assumptions/32.md. -/
def Obligations.UnitOperationsLeaveTheDecoderState : Prop :=
  ∀ (i : Instr) (s t : State), i.format = .unit → (∀ content n, i ≠ .lichAccumulate content n) →
    exec i s = .next t → t.dec = s.dec ∧ t.input = s.input

/-- For every frame and state, DECODE_FRAME completes. SYNC_MISMATCH is noted exactly for type UNKNOWN and
leaves the Decoder State; an uncorrectable sub-block or a number 6 or 7 occurs on STREAM frames and
leaves all but STREAM; LSF_INVALID occurs on STREAM frames, clears bitmap and scratch and keeps LSF; and
with each of these three STREAM is still written, with CONVDEC_STREAM of the transformed payload. (The
ghost value is the model's, log 16.) Derived from 60_exceptions.md section 1 (R191 to R195),
notes/assumptions/16.md. -/
def Obligations.ConditionsHaveOnlyTheirLocalEffect : Prop :=
  ∀ (frame : Bytes 48) (s : State), ∃ t, exec (.decodeFrame frame) s = .next t ∧
    (t.condition = .syncMismatch ↔ t.result = some (.frameType .unknown)) ∧
    (t.condition = .syncMismatch → t.dec = s.dec) ∧
    (∀ k, t.condition = .golayUncorrectable k → t.result = some (.frameType .stream) ∧
      t.dec = { s.dec with stream := convdecStream vitChoice (bitxform (framePayload frame)) }) ∧
    (∀ n, t.condition = .segnumInvalid n → 6 ≤ n.toNat ∧ t.result = some (.frameType .stream) ∧
      t.dec = { s.dec with stream := convdecStream vitChoice (bitxform (framePayload frame)) }) ∧
    (t.condition = .lsfInvalid → t.result = some (.frameType .stream) ∧ t.dec.lsf = s.dec.lsf ∧
      t.dec.stream = convdecStream vitChoice (bitxform (framePayload frame)) ∧
      t.dec.segmap = 0 ∧ ∀ j < 30, byteAt t.dec.lsfScratch j = 0)

/-- Two states with equal Decoder State and equal input, whatever result and condition they hold, give equal
outcomes under every operation and, where something is issued, under a step. (The two fields are the
model's own, log 15 and log 16.) Derived from 60_exceptions.md, the ghost result (R210), 10_state.md,
what is not state (R25), notes/assumptions/15.md, notes/assumptions/16.md. -/
def Obligations.ResultPortIsNeverReadBack : Prop :=
  ∀ s s' : State, s.dec = s'.dec → s.input = s'.input →
    (∀ i : Instr, exec i s = exec i s') ∧ (s.input ≠ [] → step s = step s')

/-- DECODE_FRAME is a function of frame and Decoder State for each choice of the open parameters; between
any two choices the type, the condition, the bitmap and the scratch LSF agree, LSF agrees unless the
type is LINK_SETUP, and STREAM agrees unless it is STREAM. Formalises R179. -/
def Obligations.OpenViterbiChoiceReachesOnlyTheDecodedBytes : Prop :=
  (∀ (frame : Bytes 48) (s : State), ∃ t, exec (.decodeFrame frame) s = .next t ∧
    t.dec = (decodeFrameWith vitChoice frame s.dec).2.1 ∧
    t.result = some (.frameType (decodeFrameWith vitChoice frame s.dec).1)) ∧
  ∀ (c c' : VitChoice) (frame : Bytes 48) (d : Decoder),
    (decodeFrameWith c frame d).1 = (decodeFrameWith c' frame d).1 ∧
    (decodeFrameWith c frame d).2.2 = (decodeFrameWith c' frame d).2.2 ∧
    (decodeFrameWith c frame d).2.1.segmap = (decodeFrameWith c' frame d).2.1.segmap ∧
    (decodeFrameWith c frame d).2.1.lsfScratch = (decodeFrameWith c' frame d).2.1.lsfScratch ∧
    (classify (frameSync frame) ≠ .linkSetup →
      (decodeFrameWith c frame d).2.1.lsf = (decodeFrameWith c' frame d).2.1.lsf) ∧
    (classify (frameSync frame) ≠ .stream →
      (decodeFrameWith c frame d).2.1.stream = (decodeFrameWith c' frame d).2.1.stream)

/-- For every LSF, every sync field that classifies as LINK_SETUP and every state, DECODE_FRAME of the frame
a transmitter builds completes, returns LINK_SETUP and leaves LSF equal to what was sent and the rest of
the Decoder State as it was, whatever the open Viterbi choice. It rests on the default parameters (log
2, 3, 5, 6). Derived from 43_viterbi.md (R140), 45_frame_decoder.md (R173), notes/assumptions/2.md,
notes/assumptions/3.md, notes/assumptions/5.md, notes/assumptions/6.md. -/
def Obligations.CleanLinkSetupFrameDeliversItsLsf : Prop :=
  ∀ (sync : Bytes 2) (l : Bytes 30) (s : State), classify sync = .linkSetup →
    ∃ t, exec (.decodeFrame (frameOf sync (txLinkSetup l))) s = .next t ∧
      t.result = some (.frameType .linkSetup) ∧ t.dec = { s.dec with lsf := l }

/-- For all stream bytes, four 12-bit values, error patterns of weight at most 3 on each codeword, sync
fields that classify as STREAM, and states, DECODE_FRAME of the frame a transmitter builds completes,
returns STREAM, leaves STREAM equal to what was sent and the rest of the Decoder State as the segment of
those values leaves it. It rests on the default parameters (log 2 to 6). Derived from 42_golay.md
(R121), 43_viterbi.md (R140), 45_frame_decoder.md (R174), notes/assumptions/4.md. -/
def Obligations.StreamFrameDeliversItsBytesAndSegment : Prop :=
  ∀ (sync : Bytes 2) (v0 v1 v2 v3 : BitVec 12) (e0 e1 e2 e3 : BitVec 24) (b : Bytes 18) (s : State),
    classify sync = .stream → popcount e0 ≤ 3 → popcount e1 ≤ 3 → popcount e2 ≤ 3 → popcount e3 ≤ 3 →
    ∃ t, exec (.decodeFrame (frameOf sync (txStream (golayEncode v0 ^^^ e0) (golayEncode v1 ^^^ e1)
        (golayEncode v2 ^^^ e2) (golayEncode v3 ^^^ e3) b))) s = .next t ∧
      t.result = some (.frameType .stream) ∧
      t.dec = { (applyLich (lichSegment v0 v1 v2 v3) s.dec).1 with stream := b } ∧
      t.condition = (applyLich (lichSegment v0 v1 v2 v3) s.dec).2

/-- For every frame and state: when DECODE_FRAME leaves a bitmap that is not empty or is the one it found,
so that it did not complete a reassembly, DECODE_FRAME of the same frame completes again and answers the
same state. Derived from 20_memory.md, idempotency (R51). -/
def Obligations.RepeatedFrameChangesNothingMore : Prop :=
  ∀ (frame : Bytes 48) (s t : State), exec (.decodeFrame frame) s = .next t →
    t.dec.segmap ≠ 0 ∨ t.dec.segmap = s.dec.segmap → exec (.decodeFrame frame) t = .next t

/-- For every array and positions inside it: getbit reads that bit, setbit makes the byte the formula gives
and leaves every other bit of the array as it was. Formalises R43. -/
def Obligations.BitPositionsAreMostSignificantFirst : Prop :=
  ∀ (n : Nat) (a : Bytes n) (p : Nat) (v : Bool), p < 8 * n →
    (getbit a p = true ↔ (byteAt a (p / 8) >>> (7 - p % 8)) &&& 1#8 = 1#8) ∧
    byteAt (setbit a p v) (p / 8) =
      (byteAt a (p / 8) &&& ~~~(1#8 <<< (7 - p % 8))) ||| ((if v then 1#8 else 0#8) <<< (7 - p % 8)) ∧
    getbit (setbit a p v) p = v ∧ ∀ q < 8 * n, q ≠ p → getbit (setbit a p v) q = getbit a q

/-- When the issued bytes decode to an operation, a step is the meaning of that operation in the state with
its bytes taken; when nothing is issued, the state stays as it is. (The byte port and the idle step are
the model's choices, log 12 and log 13.) Derived from 20_memory.md (R50, R53), 30_encoding.md (R75,
R79), notes/assumptions/12.md, notes/assumptions/13.md. -/
def Obligations.StepRunsTheDecodedOperation : Prop :=
  (∀ (s : State) (i : Instr) (rest : List Byte), decode .command s.input = .ok i rest →
    step s = exec i { s with input := rest }) ∧
  ∀ s : State, s.input = [] → step s = .next s

/-- A first byte from 0x02 to 0xFF is refused as a reserved command, a DECODE_FRAME with fewer than 48 bytes
behind it as a truncated frame; with no bytes, a RESET byte, or a DECODE_FRAME byte and 48 bytes or
more, a step answers a next state. (The byte port and the idle step are the model's choices, log 12 and
log 13; the refusals are log 14.) Derived from 30_encoding.md (R76), 60_exceptions.md (R209),
notes/assumptions/12.md, notes/assumptions/13.md, notes/assumptions/14.md. -/
def Obligations.StepRefusesExactlyWhatIsNoOperation : Prop :=
  (∀ (s : State) (code : Byte) (rest : List Byte), s.input = code :: rest → 2 ≤ code.toNat →
    step s = .refused (.reservedCommand code)) ∧
  (∀ (s : State) (rest : List Byte), s.input = 0x01#8 :: rest → rest.length < 48 →
    step s = .refused (.truncatedFrame rest.length)) ∧
  (∀ (s : State) (rest : List Byte),
    s.input = [] ∨ s.input = 0x00#8 :: rest ∨ s.input = 0x01#8 :: rest ∧ 48 ≤ rest.length →
    ∃ t, step s = .next t)

/-- For every script of host operations, every state and whatever bytes are issued behind it: as many steps
as the script has operations complete, end in the state that the operations give one after the other,
and leave exactly the bytes behind. (The byte port is the model's, log 12.) Derived from 20_memory.md,
the k-fold composition (R53), 30_encoding.md, scripts (R75, R79), notes/assumptions/12.md. -/
def Obligations.ScriptRunIsTheCompositionOfItsOperations : Prop :=
  ∀ (script : List Instr) (s : State) (rest : List Byte), (∀ i ∈ script, i.format = .command) →
    ∃ t, Host.Core.run Sys2Proof.core script.length { s with input := encodeScript script ++ rest } = .next t ∧
      runOps script { s with input := rest } = .next t ∧ t.input = rest

/-- For every well-formed operation, whatever its operands: each of the command and sync formats has an
encoding, and the decoder of its format reads that encoding, with any bytes behind it, as the operation
and those bytes. Derived from 30_encoding.md (R60, R62, R75). -/
def Obligations.DecodeOfEncodeIsTheOperation : Prop :=
  (∀ i : Instr, i.format ≠ .unit → ∃ bs, encode i = some bs) ∧
  ∀ (i : Instr) (bs rest : List Byte), i.wf = true → encode i = some bs →
    decode i.format (bs ++ rest) = .ok i rest

/-- If the decoder of a format reads an operation from bytes, the operation is of that format and
well-formed, and the bytes are its encoding followed by what is left: no bit is dropped and no two
operations share bytes. Derived from 30_encoding.md (R60, R62, R75, R76). -/
def Obligations.EveryDecodedWordIsTheEncodingOfItsOperation : Prop :=
  ∀ (f : Format) (bs : List Byte) (i : Instr) (rest : List Byte), decode f bs = .ok i rest →
    i.format = f ∧ i.wf = true ∧ ∃ e, encode i = some e ∧ bs = e ++ rest

/-- Command words 0x00 and 0x01 decode to RESET and DECODE_FRAME, every other 8-bit command word to nothing;
the sync words of the table decode to the three reference paths and 0x0077 to UNKNOWN. (How a table word
is laid out is log 18.) Derived from 30_encoding.md (R62, R75, R76), notes/assumptions/18.md. -/
def Obligations.TableWordsDecodeToTheirRows : Prop :=
  decodeTableWord 8 0x00 = some .reset ∧ decodeTableWord 8 0x01 = some (.decodeFrame (zeroBytes 48)) ∧
  (∀ w, 2 ≤ w → w < 256 → decodeTableWord 8 w = none) ∧
  decodeTableWord 16 0x7777 = some (.dfPreamble #v[0x77, 0x77] (zeroBytes 46)) ∧
  decodeTableWord 16 0x55F7 = some (.dfLinkSetup #v[0x55, 0xF7] (zeroBytes 46)) ∧
  decodeTableWord 16 0xFF5D = some (.dfStream #v[0xFF, 0x5D] (zeroBytes 46)) ∧
  decodeTableWord 16 0x0077 = some (.dfUnknown #v[0x00, 0x77] (zeroBytes 46))

/-- For every state: DECODE_FRAME of a frame classified LINK_SETUP completes with LSF equal, in all 30
bytes, to what CONVDEC_LSF of the transformed payload answers, the rest of the Decoder State unchanged;
of a frame classified STREAM with STREAM equal, in all 18 bytes, to what CONVDEC_STREAM answers; and
CONVDEC_STREAM reads bytes 12 to 45 of the payload only. (That the storing is the path's is log 32.)
Derived from 20_memory.md, the rows CONVDEC_LSF and CONVDEC_STREAM (R48), 43_viterbi.md, the caller
stores the result (R136), 45_frame_decoder.md, phase 4 and the two paths (R172, R173, R174),
notes/assumptions/32.md. -/
def Obligations.DecodeFrameStoresWhatTheConvolutionalDecoderAnswers : Prop :=
  (∀ (frame : Bytes 48) (s : State), classify (frameSync frame) = .linkSetup →
    ∃ (t u : State) (out : Bytes 30), exec (.decodeFrame frame) s = .next t ∧
      exec (.convdecLsf (bitxform (framePayload frame))) s = .next u ∧
      u.result = some (.bytes out.toList) ∧ t.dec = { s.dec with lsf := out }) ∧
  (∀ (frame : Bytes 48) (s : State), classify (frameSync frame) = .stream →
    ∃ (t u : State) (out : Bytes 18), exec (.decodeFrame frame) s = .next t ∧
      exec (.convdecStream (bitxform (framePayload frame))) s = .next u ∧
      u.result = some (.bytes out.toList) ∧ t.dec.stream = out) ∧
  ∀ (x x' : Bytes 46) (s : State), (∀ i < 46, 12 ≤ i → byteAt x i = byteAt x' i) →
    exec (.convdecStream x) s = exec (.convdecStream x') s
end

