-- ==== Sys2Proof/Laws/Arrays.lean ====
section
/-! SUPPORT. Reading a byte or a bit of the arrays the operations build. -/

namespace Sys2Proof.Machine

theorem byteAt_of_lt {n : Nat} (a : Bytes n) {i : Nat} (h : i < n) : byteAt a i = a[i] := by
  simp [byteAt, h]

/-- Two arrays with the same bytes are the same. -/
theorem bytes_ext {n : Nat} {a b : Bytes n} (h : ∀ i < n, byteAt a i = byteAt b i) : a = b := by
  ext i hi : 1
  simpa [byteAt_of_lt _ hi] using h i hi

@[simp] theorem getElem_tabulate {α : Type} (n : Nat) (f : Nat → α) (i : Nat) (h : i < n) :
    (tabulate n f)[i] = f i := by
  simp [tabulate]

theorem byteAt_tabulate {n : Nat} (f : Nat → Byte) {i : Nat} (h : i < n) : byteAt (tabulate n f) i = f i := by
  simp [byteAt_of_lt _ h]

@[simp] theorem byteAt_zeroBytes (n i : Nat) : byteAt (zeroBytes n) i = 0 := by
  by_cases h : i < n
  · simp [byteAt_of_lt _ h, zeroBytes]
  · simp [byteAt, zeroBytes, h]

theorem byteAt_slice {n : Nat} (a : Bytes n) (start len : Nat) {i : Nat} (h : i < len) :
    byteAt (slice a start len) i = byteAt a (start + i) := byteAt_tabulate _ h

theorem byteOfBits_getLsbD (f : Nat → Bool) {j : Nat} (h : j < 8) :
    (byteOfBits f).getLsbD (7 - j) = f j := by
  interval_cases j <;> simp only [byteOfBits, BitVec.getLsbD_append, BitVec.getLsbD_ofBool] <;> simp

/-- The array built from bits has those bits (20_memory.md R43). -/
theorem getbit_ofBits (n : Nat) (f : Nat → Bool) {p : Nat} (h : p < 8 * n) :
    getbit (ofBits n f) p = f p := by
  have hp : p / 8 < n := by omega
  have hr : p % 8 < 8 := Nat.mod_lt _ (by decide)
  rw [getbit, ofBits, byteAt_tabulate _ hp, byteOfBits_getLsbD _ hr]
  congr 1
  exact Nat.div_add_mod p 8

/-- Two arrays with the same bits are the same. -/
theorem bytes_ext_bits {n : Nat} {a b : Bytes n} (h : ∀ p < 8 * n, getbit a p = getbit b p) : a = b := by
  refine bytes_ext fun i hi => BitVec.eq_of_getLsbD_eq fun j hj => ?_
  have := h (8 * i + (7 - j)) (by omega)
  have h1 : (8 * i + (7 - j)) / 8 = i := by omega
  have h2 : 7 - (8 * i + (7 - j)) % 8 = j := by omega
  rwa [getbit, getbit, h1, h2] at this

theorem getbit_packBits (n : Nat) (u : Bits) {k : Nat} (h : k < 8 * n) :
    getbit (packBits n u) k = u.getD k false := getbit_ofBits n _ h

theorem getbit_deinterleave (p : Bytes 46) {i : Nat} (h : i < 368) :
    getbit (deinterleave p) i = getbit p (intlPi i) := getbit_ofBits 46 _ h

theorem byteAt_decorrelate (p : Bytes 46) {i : Nat} (h : i < 46) :
    byteAt (decorrelate p) i = byteAt p i ^^^ byteAt decorrSeq i := by
  exact byteAt_tabulate _ h

/-- What the copy of a segment does to each byte (44_lich.md R157). -/
theorem byteAt_copySegment (scratch : Bytes 30) (content : Bytes 5) (n : Fin 6) {j : Nat} (h : j < 30) :
    byteAt (copySegment scratch content n) j =
      if 5 * n.val ≤ j ∧ j < 5 * n.val + 5 then byteAt content (j - 5 * n.val) else byteAt scratch j := by
  rw [copySegment, byteAt_tabulate _ h]

end Sys2Proof.Machine
end

