-- ==== Sys2Proof/Laws/State.lean ====
section
/-! SUPPORT. One lemma per field for each way an operation ends, and for RESET. -/

namespace Sys2Proof.Machine

@[simp] theorem State.answer_dec (s : State) (r : Result) (c : Condition) : (s.answer r c).dec = s.dec := rfl
@[simp] theorem State.answer_input (s : State) (r : Result) (c : Condition) :
    (s.answer r c).input = s.input := rfl
@[simp] theorem State.answer_result (s : State) (r : Result) (c : Condition) :
    (s.answer r c).result = some r := rfl
@[simp] theorem State.answer_condition (s : State) (r : Result) (c : Condition) :
    (s.answer r c).condition = c := rfl

@[simp] theorem State.finish_dec (s : State) (d : Decoder) (r : Option Result) (c : Condition) :
    (s.finish d r c).dec = d := rfl
@[simp] theorem State.finish_input (s : State) (d : Decoder) (r : Option Result) (c : Condition) :
    (s.finish d r c).input = s.input := rfl
@[simp] theorem State.finish_result (s : State) (d : Decoder) (r : Option Result) (c : Condition) :
    (s.finish d r c).result = r := rfl
@[simp] theorem State.finish_condition (s : State) (d : Decoder) (r : Option Result) (c : Condition) :
    (s.finish d r c).condition = c := rfl

@[simp] theorem Decoder.cleared_lsf : Decoder.cleared.lsf = zeroBytes 30 := rfl
@[simp] theorem Decoder.cleared_lsfScratch : Decoder.cleared.lsfScratch = zeroBytes 30 := rfl
@[simp] theorem Decoder.cleared_segmap : Decoder.cleared.segmap = 0 := rfl
@[simp] theorem Decoder.cleared_stream : Decoder.cleared.stream = zeroBytes 18 := rfl

@[simp] theorem linkSetupPath_lsf (c : VitChoice) (x : Bytes 46) (d : Decoder) :
    (linkSetupPath c x d).lsf = convdecLsf c x := rfl
@[simp] theorem linkSetupPath_lsfScratch (c : VitChoice) (x : Bytes 46) (d : Decoder) :
    (linkSetupPath c x d).lsfScratch = d.lsfScratch := rfl
@[simp] theorem linkSetupPath_segmap (c : VitChoice) (x : Bytes 46) (d : Decoder) :
    (linkSetupPath c x d).segmap = d.segmap := rfl
@[simp] theorem linkSetupPath_stream (c : VitChoice) (x : Bytes 46) (d : Decoder) :
    (linkSetupPath c x d).stream = d.stream := rfl

@[simp] theorem streamPath_stream (c : VitChoice) (x : Bytes 46) (d : Decoder) :
    (streamPath c x d).1.stream = convdecStream c x := rfl
@[simp] theorem streamPath_lsf (c : VitChoice) (x : Bytes 46) (d : Decoder) :
    (streamPath c x d).1.lsf = (applyLich (lichUnpack (lichExtract x)) d).1.lsf := rfl
@[simp] theorem streamPath_lsfScratch (c : VitChoice) (x : Bytes 46) (d : Decoder) :
    (streamPath c x d).1.lsfScratch = (applyLich (lichUnpack (lichExtract x)) d).1.lsfScratch := rfl
@[simp] theorem streamPath_segmap (c : VitChoice) (x : Bytes 46) (d : Decoder) :
    (streamPath c x d).1.segmap = (applyLich (lichUnpack (lichExtract x)) d).1.segmap := rfl
@[simp] theorem streamPath_condition (c : VitChoice) (x : Bytes 46) (d : Decoder) :
    (streamPath c x d).2 = (applyLich (lichUnpack (lichExtract x)) d).2 := rfl

end Sys2Proof.Machine
end

