-- ==== Sys2Proof/Laws/Ops.lean ====
section
/-! SUPPORT. What each shared operation can do, said once: later proofs cite these instead of unfolding. -/

namespace Sys2Proof.Machine

/-- LICH_ACCUMULATE has three outcomes (44_lich.md R163): the candidate is incomplete, complete and valid,
or complete and invalid. -/
theorem accumulate_cases (content : Bytes 5) (n : Fin 6) (d : Decoder) :
    (markSegment d.segmap n ≠ 0x3F#6 ∧ accumulate content n d =
      ({ d with lsfScratch := copySegment d.lsfScratch content n, segmap := markSegment d.segmap n }, .none)) ∨
    (markSegment d.segmap n = 0x3F#6 ∧ lsfValid (copySegment d.lsfScratch content n) = true ∧
      accumulate content n d =
        ({ d with lsf := copySegment d.lsfScratch content n, lsfScratch := zeroBytes 30, segmap := 0 }, .none)) ∨
    (markSegment d.segmap n = 0x3F#6 ∧ lsfValid (copySegment d.lsfScratch content n) = false ∧
      accumulate content n d = ({ d with lsfScratch := zeroBytes 30, segmap := 0 }, .lsfInvalid)) := by
  simp only [accumulate, mapComplete, beq_iff_eq]
  by_cases hm : markSegment d.segmap n = 0x3F#6
  · cases hv : lsfValid (copySegment d.lsfScratch content n) <;> simp [hm]
  · simp [hm]

/-- The LICH part of a frame accumulates an accepted segment and otherwise writes nothing
(45_frame_decoder.md R174). -/
theorem applyLich_cases (r : LichResult) (d : Decoder) :
    (∃ content n, r = .segment content n ∧ applyLich r d = accumulate content n d) ∨
    ((∀ content n, r ≠ .segment content n) ∧ applyLich r d = (d, lichCondition r)) := by
  cases r with
  | segment content n => exact .inl ⟨content, n, rfl, rfl⟩
  | golayUncorrectable i => exact .inr ⟨by simp, rfl⟩
  | segnumInvalid n => exact .inr ⟨by simp, rfl⟩

/-- The LICH part of a frame writes `LSF` only where an accepted segment completes a valid candidate
(10_state.md R29, 44_lich.md R159). -/
theorem applyLich_lsf_of_ne {r : LichResult} {d : Decoder} (h : (applyLich r d).1.lsf ≠ d.lsf) :
    ∃ content n, r = .segment content n ∧ markSegment d.segmap n = 0x3F#6 ∧
      lsfValid (copySegment d.lsfScratch content n) = true ∧ applyLich r d =
        ({ d with lsf := copySegment d.lsfScratch content n, lsfScratch := zeroBytes 30, segmap := 0 }, .none) := by
  rcases applyLich_cases r d with ⟨content, n, hr, ha⟩ | ⟨-, ha⟩
  · rw [ha] at h ⊢
    rcases accumulate_cases content n d with ⟨-, e⟩ | ⟨hm, hv, e⟩ | ⟨-, -, e⟩
    · exact absurd (by rw [e]) h
    · exact ⟨content, n, hr, hm, hv, e⟩
    · exact absurd (by rw [e]) h
  · exact absurd (by rw [ha]) h

/-- DECODE_FRAME takes one of its four paths (45_frame_decoder.md R171). -/
theorem decodeFrameWith_cases (c : VitChoice) (frame : Bytes 48) (d : Decoder) :
    (classify (frameSync frame) = .preamble ∧ decodeFrameWith c frame d = (.preamble, d, .none)) ∨
    (classify (frameSync frame) = .linkSetup ∧ decodeFrameWith c frame d =
      (.linkSetup, linkSetupPath c (bitxform (framePayload frame)) d, .none)) ∨
    (classify (frameSync frame) = .stream ∧ decodeFrameWith c frame d =
      (.stream, streamPath c (bitxform (framePayload frame)) d)) ∨
    (classify (frameSync frame) = .unknown ∧ decodeFrameWith c frame d = (.unknown, d, .syncMismatch)) := by
  unfold decodeFrameWith
  cases h : classify (frameSync frame) <;> simp

/-- What the fetch makes of the bytes issued (30_encoding.md R75, R76). -/
theorem fetch_cases (input : List Byte) :
    (input = [] ∧ fetch input = .idle) ∨
    (∃ rest, input = 0x00#8 :: rest ∧ fetch input = .run .reset rest) ∨
    (∃ rest, input = 0x01#8 :: rest ∧ 48 ≤ rest.length ∧
      fetch input = .run (.decodeFrame (toBytes 48 rest)) (rest.drop 48)) ∨
    (∃ rest, input = 0x01#8 :: rest ∧ rest.length < 48 ∧
      fetch input = .refuse (.truncatedFrame rest.length)) ∨
    (∃ code rest, input = code :: rest ∧ code ≠ 0x00#8 ∧ code ≠ 0x01#8 ∧
      fetch input = .refuse (.reservedCommand code)) := by
  cases input with
  | nil => exact .inl ⟨rfl, rfl⟩
  | cons code rest =>
    by_cases h0 : code = 0x00#8
    · subst h0; exact .inr (.inl ⟨rest, rfl, rfl⟩)
    · by_cases h1 : code = 0x01#8
      · subst h1
        by_cases hl : 48 ≤ rest.length
        · exact .inr (.inr (.inl ⟨rest, rfl, hl, by simp [fetch, decode, decodeCommand, takeFrame, hl]⟩))
        · exact .inr (.inr (.inr (.inl ⟨rest, rfl, by omega,
            by simp [fetch, decode, decodeCommand, takeFrame, hl]⟩)))
      · exact .inr (.inr (.inr (.inr ⟨code, rest, rfl, h0, h1, by
          simp [fetch, decode, decodeCommand, h0, h1]⟩)))

/-- If a step answers a next state, the block was idle, or it ran a RESET, or a DECODE_FRAME. -/
theorem step_next_cases {s t : State} (h : step s = .next t) :
    (s.input = [] ∧ t = s) ∨
    (∃ rest, s.input = 0x00#8 :: rest ∧ t = { s with input := rest }.finish Decoder.cleared none .none) ∨
    (∃ rest, s.input = 0x01#8 :: rest ∧ 48 ≤ rest.length ∧
      execDecodeFrame (toBytes 48 rest) { s with input := rest.drop 48 } = .next t) := by
  unfold step at h
  rcases fetch_cases s.input with ⟨hi, hf⟩ | ⟨rest, hi, hf⟩ | ⟨rest, hi, hl, hf⟩ | ⟨rest, _, _, hf⟩ |
      ⟨code, rest, _, _, _, hf⟩ <;> rw [hf] at h
  · exact .inl ⟨hi, (Host.Outcome.next.inj h).symm⟩
  · exact .inr (.inl ⟨rest, hi, (Host.Outcome.next.inj h).symm⟩)
  · exact .inr (.inr ⟨rest, hi, hl, h⟩)
  · cases h
  · cases h

end Sys2Proof.Machine
end

