-- ==== Sys2Proof/Laws/PerInstr.lean ====
section
/-! SUPPORT. Statements made for every instruction, one lemma per constructor. -/

namespace Sys2Proof.Laws.EncodedLength

/-- The encoding of an operation, where its format has one, has the length its format gives it
(spec/30_encoding.md R60, R75, R78). -/
def Statement (i : Instr) : Prop := ∀ bs, encode i = some bs → bs.length = i.encodedLength

theorem reset : Statement .reset := by rintro _ ⟨⟩; rfl
theorem decodeFrame (frame : Bytes 48) : Statement (.decodeFrame frame) := by
  rintro _ ⟨⟩; simp [Instr.encodedLength]
theorem dfPreamble (sync : Bytes 2) (payload : Bytes 46) : Statement (.dfPreamble sync payload) := by
  rintro _ ⟨⟩; simp [Instr.encodedLength]
theorem dfLinkSetup (sync : Bytes 2) (payload : Bytes 46) : Statement (.dfLinkSetup sync payload) := by
  rintro _ ⟨⟩; simp [Instr.encodedLength]
theorem dfStream (sync : Bytes 2) (payload : Bytes 46) : Statement (.dfStream sync payload) := by
  rintro _ ⟨⟩; simp [Instr.encodedLength]
theorem dfUnknown (sync : Bytes 2) (payload : Bytes 46) : Statement (.dfUnknown sync payload) := by
  rintro _ ⟨⟩; simp [Instr.encodedLength]
theorem dist16 (s ref : Bytes 2) : Statement (.dist16 s ref) := by rintro _ ⟨⟩
theorem classify (s : Bytes 2) : Statement (.classify s) := by rintro _ ⟨⟩
theorem decorrelate (p : Bytes 46) : Statement (.decorrelate p) := by rintro _ ⟨⟩
theorem deinterleave (p : Bytes 46) : Statement (.deinterleave p) := by rintro _ ⟨⟩
theorem bitxform (p : Bytes 46) : Statement (.bitxform p) := by rintro _ ⟨⟩
theorem golay24Decode (w : BitVec 24) : Statement (.golay24Decode w) := by rintro _ ⟨⟩
theorem depuncture (r pattern : Bits) : Statement (.depuncture r pattern) := by rintro _ ⟨⟩
theorem viterbi (y : List Sym) : Statement (.viterbi y) := by rintro _ ⟨⟩
theorem convdec (b : List Byte) (pattern : Bits) (n : Nat) : Statement (.convdec b pattern n) := by rintro _ ⟨⟩
theorem convdecLsf (x : Bytes 46) : Statement (.convdecLsf x) := by rintro _ ⟨⟩
theorem convdecStream (x : Bytes 46) : Statement (.convdecStream x) := by rintro _ ⟨⟩
theorem lichExtract (x : Bytes 46) : Statement (.lichExtract x) := by rintro _ ⟨⟩
theorem lichUnpack (lich : Bytes 12) : Statement (.lichUnpack lich) := by rintro _ ⟨⟩
theorem lichAccumulate (content : Bytes 5) (segnum : Fin 6) : Statement (.lichAccumulate content segnum) := by
  rintro _ ⟨⟩
theorem lsfValid (l : Bytes 30) : Statement (.lsfValid l) := by rintro _ ⟨⟩

end Sys2Proof.Laws.EncodedLength
end

