-- ==== Sys2Proof/Laws/Viterbi.lean ====
section
/-! SUPPORT. What the pieces of the convolutional decoder do, said once. -/

namespace Sys2Proof.Machine

@[simp] theorem encFrom_length (s : Trellis) (u : Bits) : (encFrom s u).length = 2 * u.length := by
  induction u generalizing s with
  | nil => rfl
  | cons b u ih => simp [encFrom, ih]; omega

@[simp] theorem enc_length (u : Bits) : (enc u).length = 2 * u.length := encFrom_length 0 u

/-- A kept candidate is one of the two, and no dearer than either. -/
theorem keepCheaper_cases {later : Bool} {p q : Option Survivor} {r : Survivor}
    (h : keepCheaper later p q = some r) :
    (p = some r ∨ q = some r) ∧ (∀ a, p = some a → r.cost ≤ a.cost) ∧ (∀ a, q = some a → r.cost ≤ a.cost) := by
  cases p with
  | none => simp_all [keepCheaper]
  | some a =>
    cases q with
    | none => simp_all [keepCheaper]
    | some b =>
      simp only [keepCheaper] at h
      split at h
      · simp_all; omega
      · split at h
        · simp_all
        · split at h <;> simp_all

/-- Some candidate is kept as soon as there is one. -/
theorem keepCheaper_isSome (later : Bool) (p q : Option Survivor) :
    (keepCheaper later p q).isSome = (p.isSome || q.isSome) := by
  cases p <;> cases q <;> simp only [keepCheaper, Option.isSome_none, Option.isSome_some, Bool.or_self,
    Bool.or_true, Bool.or_false]
  split
  · rfl
  · split
    · rfl
    · split <;> rfl

theorem padEven_length (y : List Sym) : (padEven y).length % 2 = 0 := by
  unfold padEven
  split
  · simp; omega
  · omega

end Sys2Proof.Machine
end

