-- ==== Sys2Proof/Tests/Slice0.lean ====
section
/-! SUPPORT. The model's own tests. Every expected value stands in spec/95_test_vectors.md under the name the
test's comment gives (they hold at the default parameters), or is written out by hand from the rule named. The second half
shows, for each statement that has hypotheses, concrete values that meet them. -/

open Sys2Proof Sys2Proof.Machine

namespace Sys2Proof.Tests

-- One theorem after the other: the kernel evaluations side by side take too much memory.
set_option Elab.async false

/-- The `n` bytes of a number, the first byte the most significant. -/
def hex (n v : Nat) : Bytes n := tabulate n fun i => BitVec.ofNat 8 (v >>> (8 * (n - 1 - i)))

/-- Bits, written as 0 and 1. -/
def bits (ds : List Nat) : Bits := ds.map (· == 1)

/-- Symbols: 0 and 1, and 2 for an erasure. -/
def syms (ds : List Nat) : List Sym := ds.map fun d => if d = 2 then .erased else .bit (d == 1)

/-- The state of an outcome, if it is a next state. -/
def nextOf : Host.Outcome State Fault Refusal → Option State
  | .next s => some s
  | .fault _ => none
  | .refused _ => none

/-- The refusal of an outcome, if it is one. -/
def refusalOf : Host.Outcome State Fault Refusal → Option Refusal
  | .next _ => none
  | .fault _ => none
  | .refused r => some r

/-- `L` of spec/95_test_vectors.md, a valid Link Setup Frame. -/
def frameL : Bytes 30 := hex 30 0x000102030405060708090A0B0C0D0E0F101112131415161718191A1BF305

/-- `L2` of spec/95_test_vectors.md, another valid one. -/
def frameL2 : Bytes 30 := hex 30 0xFFFEFDFCFBFAF9F8F7F6F5F4F3F2F1F0EFEEEDECEBEAE9E8E7E6E5E4BB13

/-- The state with `L2` adopted, segments 0, 1, 3, 4, 5 of `L` accepted, and a stream frame. -/
def missingTwo : State :=
  { State.reset with dec := {
      lsf := frameL2
      lsfScratch := hex 30 0x0001020304050607080900000000000F101112131415161718191A1BF305
      segmap := 0x3B#6
      stream := hex 18 0x000102030405060708090A0B0C0D0E0F1011 } }

/-- The raw frame of V-DF-1: segment 2 of `L`. -/
def frameSegment2 : Bytes 48 := hex 48
  0xFF5DAFEB4983167A3A6D5ECE111F05FC5E55A7D0B24754BDD696045F8433D998A0106CABF719E9F583182F96E5F62B8D

/-- The raw frame of V-DF-10: segment number 6. -/
def frameSegment6 : Bytes 48 := hex 48
  0xFF5DAFEB4983167A7A6D5ECE111705F45E55A7C0B24754BDD494045F8433D998A0106CABF799E9F583182E96E5F62B8D

/-- The raw frame of V-DF-2, which carries `L`. -/
def frameLinkSetup : Bytes 48 := hex 48
  0x55F7C76F4F3C66C89C85CE5A8D0863EC87C3264AD57091DA1DEEDC191B577337B9C778B11B6F6DA9C6A8128422354888

/-- The raw frame of V-DF-11: the stream sync word and 46 zero bytes. -/
def frameZeroStream : Bytes 48 := frameOf syncRefStream (zeroBytes 46)

/-- The state `missingTwo` with the frame of segment 2 issued. -/
def issuedTwo : State := { missingTwo with input := 0x01 :: frameSegment2.toList }

/-- A payload whose LICH field is the one of V-LI-1, segment 2. -/
def payloadSegment2 : Bytes 46 := txTransform (hex 46 (0x1230AC456B6C789810A40E84 <<< 272))

/-! Well-formedness: each check refuses an ill-formed term. -/

theorem test_wf_refuses_preamble_sync : (Instr.dfPreamble #v[0x55, 0xF7] (zeroBytes 46)).wf = false := by decide
theorem test_wf_refuses_link_setup_sync : (Instr.dfLinkSetup #v[0x77, 0x77] (zeroBytes 46)).wf = false := by decide
theorem test_wf_refuses_stream_sync : (Instr.dfStream #v[0x55, 0x5D] (zeroBytes 46)).wf = false := by decide
theorem test_wf_refuses_unknown_sync : (Instr.dfUnknown #v[0x00, 0xF7] (zeroBytes 46)).wf = false := by decide
theorem test_wf_refuses_pattern_without_one : (Instr.depuncture [true] [false, false]).wf = false := by decide
theorem test_wf_refuses_odd_symbols : (Instr.viterbi [.erased]).wf = false := by decide
theorem test_wf_refuses_convdec_pattern : (Instr.convdec [0xFF] [] 0).wf = false := by decide
theorem test_wf_refuses_convdec_size : (Instr.convdec [0xFF] [true] 1).wf = false := by decide +kernel

/-! Decoding: words written out from the encodings of 30_encoding.md. -/

/-- Command code 0x00, R75. -/
theorem test_decode_reset : decode .command [0b00000000, 0xAB] = .ok .reset [0xAB] := by decide
/-- Command code 0x01 and 48 bytes, R75. -/
theorem test_decode_decode_frame :
    decode .command (0b00000001 :: List.replicate 48 0x5A ++ [0x00]) =
      .ok (.decodeFrame (Vector.replicate 48 0x5A)) [0x00] := by decide +kernel
/-- Command code 0x02 is reserved, R76. -/
theorem test_decode_reserved : decode .command [0x02] = .reject (.reservedCommand 0x02) := by decide
/-- Command code 0xFF is reserved, R76. -/
theorem test_decode_reserved_last : decode .command [0xFF, 0x00] = .reject (.reservedCommand 0xFF) := by decide
/-- 47 bytes behind the command byte, U2. -/
theorem test_decode_truncated :
    decode .command (0x01 :: List.replicate 47 0x77) = .reject (.truncatedFrame 47) := by decide
/-- The preamble word 0111 0111 0111 0111, R62. -/
theorem test_decode_preamble :
    decode .sync ([0b01110111, 0b01110111] ++ List.replicate 46 0) =
      .ok (.dfPreamble #v[0x77, 0x77] (zeroBytes 46)) [] := by decide +kernel
/-- The link-setup word 0101 0101 1111 0111, R62. -/
theorem test_decode_link_setup :
    decode .sync ([0b01010101, 0b11110111] ++ List.replicate 46 0) =
      .ok (.dfLinkSetup #v[0x55, 0xF7] (zeroBytes 46)) [] := by decide +kernel
/-- The stream word 1111 1111 0101 1101, R62. -/
theorem test_decode_stream :
    decode .sync ([0b11111111, 0b01011101] ++ List.replicate 46 0x21) =
      .ok (.dfStream #v[0xFF, 0x5D] (Vector.replicate 46 0x21)) [] := by decide +kernel
/-- V-CL-15: 00 77 is no reference word's, R62. -/
theorem test_decode_unknown :
    decode .sync ([0b00000000, 0b01110111] ++ List.replicate 46 0) =
      .ok (.dfUnknown #v[0x00, 0x77] (zeroBytes 46)) [] := by decide +kernel
/-- A unit operation has no encoding, R78. -/
theorem test_decode_unit : decode .unit [0x00] = .reject .noEncoding := by decide
/-- Table words, with the bits as spec/opcode_table.json numbers them. -/
theorem test_table_words :
    decodeTableWord 8 0 = some .reset ∧ decodeTableWord 8 1 = some (.decodeFrame (zeroBytes 48)) ∧
    decodeTableWord 16 0x55F7 = some (.dfLinkSetup #v[0x55, 0xF7] (zeroBytes 46)) ∧
    decodeTableWord 12 0 = none := by decide +kernel
/-- The encoding of a script is 00 for RESET and 01 and the frame bytes for DECODE_FRAME, R79. -/
theorem test_encode_script :
    encodeScript [.reset, .decodeFrame (Vector.replicate 48 0x77), .reset] =
      0x00 :: 0x01 :: (List.replicate 48 0x77 ++ [0x00]) := by decide
/-- The script line of RESET, R79. -/
theorem test_script_line_reset : scriptLine .reset = some ['R', 'E', 'S', 'E', 'T'] := by decide
/-- The digits of a frame byte, R79. -/
theorem test_hex_byte : hexByte 0x9F = ['9', 'F'] ∧ hexByte 0x0A = ['0', 'A'] := by decide

/-! Bit order and fields. -/

/-- R43: position 0 is bit 7 of byte 0. -/
theorem test_getbit_first : getbit (#v[0x80, 0x01] : Bytes 2) 0 = true ∧
    getbit (#v[0x80, 0x01] : Bytes 2) 15 = true ∧ getbit (#v[0x80, 0x01] : Bytes 2) 8 = false := by decide
/-- R43: position 9 is bit 6 of byte 1. -/
theorem test_setbit : setbit (#v[0x00, 0x80] : Bytes 2) 9 true = #v[0x00, 0xC0] := by decide +kernel
/-- The four values of segment 5 of `L`, V-LI-17. -/
theorem test_pack_segment :
    packSegment 0x191 0xA1B 0xF30 0x5A0 = #v[0x19, 0x1A, 0x1B, 0xF3, 0x05, 0xA0] := by decide

/-! The units. -/

/-- V-CL-19: the complement of the stream word is at distance 16. -/
theorem test_dist16 : dist16 #v[0x00, 0xA2] syncRefStream = 16 := by decide
/-- V-CL-7: 75 FF is at distance 3 from the preamble word. -/
theorem test_exec_dist16 :
    nextOf (exec (.dist16 #v[0x75, 0xFF] #v[0x77, 0x77]) missingTwo) =
      some { missingTwo with result := some (.distance 3) } := by decide +kernel
/-- V-CL-9 to V-CL-12, V-CL-15: ties and the threshold. -/
theorem test_classify :
    classify #v[0x55, 0x5D] = .linkSetup ∧ classify #v[0xFF, 0xF7] = .preamble ∧
    classify #v[0x03, 0x77] = .preamble ∧ classify #v[0x00, 0xF7] = .linkSetup ∧
    classify #v[0x00, 0x77] = .unknown := by decide
/-- V-CL-16: far from all, and the condition is noted. -/
theorem test_exec_classify :
    nextOf (exec (.classify #v[0x00, 0x00]) missingTwo) =
      some { missingTwo with result := some (.frameType .unknown), condition := .syncMismatch } := by decide +kernel
/-- V-BX-2. -/
theorem test_decorrelate :
    decorrelate (tabulate 46 (BitVec.ofNat 8)) = hex 46
      0xD6B4E03386FA8265B2479C9BD495D3521CD940508508EE7970362FC108F7D36939ACF7A3F516A1347F31070254EE := by
  decide +kernel
/-- V-BX-3. -/
theorem test_deinterleave :
    deinterleave (tabulate 46 (BitVec.ofNat 8)) = hex 46
      0x141516171011121B1C1D1E1F38292A23242526272021222B2C2D0E0F0801020304050405020B08090E0F08191A13 := by
  decide +kernel
/-- V-BX-6. -/
theorem test_bitxform :
    bitxform (tabulate 46 (BitVec.ofNat 8)) = hex 46
      0xCC894476325C2C02E331E59AF9941551B1FC73E71121227DA332A4573AC61720E4F3F2BCCB1B9447DCC59A05D2DE := by
  decide +kernel
/-- V-BX-7: the sequence itself transforms to zeros. -/
theorem test_exec_bitxform :
    nextOf (exec (.bitxform decorrSeq) missingTwo) =
      some { missingTwo with result := some (.bytes (List.replicate 46 0)) } := by decide +kernel
/-- The encoding of 123, 95_test_vectors.md 2.3. -/
theorem test_golay_encode : golayEncode 0x123 = 0x1230AC#24 := by decide +kernel
/-- V-GO-6: three errors. -/
theorem test_golay_three_errors : golay24Decode 0x5232AD = .ok 0x123 := by decide +kernel
/-- V-GO-7: four errors. -/
theorem test_exec_golay :
    nextOf (exec (.golay24Decode 0x5632AD) missingTwo) =
      some { missingTwo with result := some (.golay .uncorrectable), condition := .golayUncorrectable none } := by
  decide +kernel
/-- V-VI-1: the impulse response. -/
theorem test_enc : enc (bits [1, 0, 0, 0, 0, 0, 0, 0]) = bits [1, 1, 0, 1, 0, 1, 1, 0, 1, 1, 0, 0, 0, 0, 0, 0] := by decide
/-- V-VI-5. -/
theorem test_depuncture : depuncture (bits [1, 1, 1, 1, 0, 0, 1, 1, 1, 0, 1, 1]) punctLsf = syms [1, 1, 2, 1, 1, 0, 2, 0, 1, 1, 2, 1, 0, 1, 2, 1] := by
  decide +kernel
/-- V-VI-6: five symbols and one of padding. -/
theorem test_exec_depuncture :
    nextOf (exec (.depuncture (bits [1, 0, 1, 1]) punctLsf) missingTwo) =
      some { missingTwo with result := some (.symbols (syms [1, 0, 2, 1, 1, 2])) } := by decide +kernel
/-- V-VI-4: one error corrected, for both ends and both constant tie-breaks. -/
theorem test_viterbi :
    viterbi ⟨.free, fun _ _ _ => false⟩ (syms [1, 1, 0, 0, 1, 0, 0, 0, 1, 1, 1, 2, 0, 1, 1, 1]) = bits [1, 0, 1, 1, 0, 0, 0, 0] ∧
    viterbi ⟨.zero, fun _ _ _ => true⟩ (syms [1, 1, 0, 0, 1, 0, 0, 0, 1, 1, 1, 2, 0, 1, 1, 1]) = bits [1, 0, 1, 1, 0, 0, 0, 0] := by decide +kernel
/-- V-VI-10: the three tied paths cost 2, and an end in state 0 leaves one. -/
theorem test_viterbi_tie :
    pathCost (bits [0, 0, 0, 0, 0, 0]) (syms [1, 1, 0, 0, 0, 0, 0, 0, 0, 0, 0, 0]) = 2 ∧ pathCost (bits [1, 1, 0, 1, 0, 0]) (syms [1, 1, 0, 0, 0, 0, 0, 0, 0, 0, 0, 0]) = 2 ∧
    pathCost (bits [1, 1, 0, 1, 0, 1]) (syms [1, 1, 0, 0, 0, 0, 0, 0, 0, 0, 0, 0]) = 2 ∧
    viterbi ⟨.zero, fun _ _ _ => true⟩ (syms [1, 1, 0, 0, 0, 0, 0, 0, 0, 0, 0, 0]) = bits [0, 0, 0, 0, 0, 0] := by decide +kernel
/-- V-VI-21: two errors in a stream payload. -/
theorem test_convdec_stream :
    convdecStream ⟨.free, fun _ _ _ => false⟩ (toBytes 46 (List.replicate 12 0 ++ (hex 34
      0x0000000D5866E1C6CD681BEB31B8EE3EBC0CB376EE6CF7E6E300DF71CFA896C1AC5B).toList)) =
      hex 18 0x000102030405060708090A0B0C0D0E0F1011 := by decide +kernel
/-- V-VI-12: the first 20 of its bytes, which hold no error, decode to the first 12 bytes of `L`. -/
theorem test_convdec_lsf_pattern :
    convdec ⟨.free, fun _ _ _ => true⟩ ((hex 20 0x0000017475872CAA0BF4CD8D8F7416975A96779B).toList) punctLsf 12 =
      slice frameL 0 12 := by decide +kernel
/-- R136 over V-VI-1: two coded bytes, no puncturing, one byte decoded. -/
theorem test_convdec : convdec ⟨.free, fun _ _ _ => true⟩ [0b11010110, 0b11000000] [true] 1 = #v[0x80] := by
  decide +kernel
/-- R150. -/
theorem test_exec_lich_extract :
    nextOf (exec (.lichExtract (tabulate 46 (BitVec.ofNat 8))) missingTwo) =
      some { missingTwo with result := some (.bytes [0, 1, 2, 3, 4, 5, 6, 7, 8, 9, 10, 11]) } := by decide +kernel
/-- V-LI-6: 1, 2 and 3 errors corrected. -/
theorem test_lich_unpack :
    lichUnpack (hex 12 0x9230AC457A6C789817A40E84) = .segment #v[0x12, 0x34, 0x56, 0x78, 0x9A] 2 := by
  decide +kernel
/-- V-LI-8: the Golay condition before the reserved number. -/
theorem test_exec_lich_unpack :
    nextOf (exec (.lichUnpack (hex 12 0x1230A3456B6C789810AC0D5E)) missingTwo) =
      some { missingTwo with
        result := some (.lich (.golayUncorrectable 0)), condition := .golayUncorrectable (some 0) } := by
  decide +kernel
/-- The sixth segment of `L` completes a valid candidate, as in command 8 of P2. -/
theorem test_accumulate_completes :
    nextOf (exec (.lichAccumulate (segmentOf frameL 2) 2) missingTwo) =
      some { missingTwo with dec := { missingTwo.dec with lsf := frameL, lsfScratch := zeroBytes 30, segmap := 0 } } := by
  decide +kernel
/-- The sixth segment with byte 14 changed to 0F completes an invalid one, as in command 8 of P4. -/
theorem test_accumulate_invalid :
    nextOf (exec (.lichAccumulate #v[0x0A, 0x0B, 0x0C, 0x0D, 0x0F] 2) missingTwo) =
      some { missingTwo with
        dec := { missingTwo.dec with lsfScratch := zeroBytes 30, segmap := 0 }, condition := .lsfInvalid } := by
  decide +kernel
/-- V-CR-3. -/
theorem test_crc16 : crc16 [0x31, 0x32, 0x33, 0x34, 0x35, 0x36, 0x37, 0x38, 0x39] = 0x772B := by decide +kernel
/-- V-CR-6, V-CR-7, V-CR-9. -/
theorem test_lsf_valid : lsfValid (zeroBytes 30) = false ∧ lsfValid frameL = true ∧
    lsfValid (hex 30 0x95E0) = true := by decide +kernel

/-! Steps. -/

/-- V-RS-1. -/
theorem test_step_reset :
    nextOf (step { missingTwo with input := [0x00, 0x01] }) = some { State.reset with input := [0x01] } := by
  decide +kernel
/-- V-DF-7: SYNC_MISMATCH, nothing else. -/
theorem test_step_unknown :
    nextOf (step (missingTwo.withFetchWord 16 0x0077)) =
      some { missingTwo with result := some (.frameType .unknown), condition := .syncMismatch } := by
  decide +kernel
/-- Property 7: a preamble frame changes nothing. -/
theorem test_step_preamble :
    nextOf (step (missingTwo.withFetchWord 16 0x7777)) =
      some { missingTwo with result := some (.frameType .preamble) } := by decide +kernel
/-- V-DF-11: the stream sync word and zeros run the path DF.STREAM; sub-block 2 is uncorrectable. -/
theorem test_step_stream :
    (nextOf (step (State.reset.withFetchWord 16 0xFF5D))).map (·.condition) =
      some (.golayUncorrectable (some 2)) := by decide +kernel
/-- V-DF-2: the link-setup frame of `L` is taken for one, and transforms to the payload of V-VI-12. -/
theorem test_decode_frame_link_setup :
    (decodeFrameWith vitChoice frameLinkSetup missingTwo.dec).1 = .linkSetup ∧
    (decodeFrameWith vitChoice frameLinkSetup missingTwo.dec).2.2 = .none ∧
    bitxform (framePayload frameLinkSetup) = hex 46
      0x0000017475872CAA0BF4CD8D8F7416975A96779B182FB1DBA4E82E38D3E914FD2F78CEFC041631880378CE15B6B7 := by
  decide +kernel
/-- V-DF-1: the segment and the stream bytes. -/
theorem test_decode_frame_stream :
    (decodeFrameWith ⟨.zero, fun _ _ _ => false⟩ frameSegment2 Decoder.cleared) =
      (.stream, { Decoder.cleared with
        lsfScratch := hex 30 0x0A0B0C0D0E000000000000000000000000000000
        segmap := 0x04#6
        stream := hex 18 0x000102030405060708090A0B0C0D0E0F1011 }, .none) := by decide +kernel
/-- A reserved command is refused, R76. -/
theorem test_step_reserved :
    refusalOf (step { missingTwo with input := [0x80] }) = some (.reservedCommand 0x80) := by decide
/-- Nothing issued: the state stays, R208. -/
theorem test_step_idle : nextOf (step missingTwo) = some missingTwo := by decide +kernel

/-! Hypotheses that are met: for each statement of Certificates/Slice0/Obligations.lean that has hypotheses,
concrete values that meet them, for each clause. -/

theorem witness_EveryStepKeepsTheStateInvariant : issuedTwo.dec.Inv ∧ ∃ t, step issuedTwo = .next t :=
  ⟨by decide +kernel, _, rfl⟩

theorem witness_EveryOperationKeepsTheStateInvariant :
    missingTwo.dec.Inv ∧ ∃ t, exec (.lichAccumulate (segmentOf frameL 2) 2) missingTwo = .next t :=
  ⟨by decide +kernel, _, rfl⟩

theorem witness_DecodeFrameRunsThePathItsSyncFieldSelects :
    classify (frameSync (frameOf #v[0x00, 0xF7] (zeroBytes 46))) = .linkSetup ∧
    classify (frameSync (frameOf #v[0xFF, 0x52] (zeroBytes 46))) = .stream ∧
    classify (frameSync (frameOf #v[0x03, 0x77] (zeroBytes 46))) = .preamble ∧
    classify (frameSync (frameOf #v[0x00, 0x77] (zeroBytes 46))) = .unknown := by decide +kernel

theorem witness_StreamPathAccumulatesThenDecodesTheStreamBytes_segment :
    lichUnpack (lichExtract (bitxform payloadSegment2)) = .segment #v[0x12, 0x34, 0x56, 0x78, 0x9A] 2 := by
  decide +kernel

theorem witness_StreamPathAccumulatesThenDecodesTheStreamBytes_abandoned :
    ∀ content n, lichUnpack (lichExtract (bitxform (framePayload frameSegment6))) ≠ .segment content n := by
  have h : lichUnpack (lichExtract (bitxform (framePayload frameSegment6))) = .segnumInvalid 6 := by decide +kernel
  simp [h]

/-- Each type at the edge of its clause: a least distance of 4 or 5, and the two ties. -/
theorem witness_ClassifyTakesTheNearestReferenceWithinTheThreshold :
    classify #v[0x03, 0x77] = .preamble ∧ dist16 #v[0x03, 0x77] syncRefPreamble = 4 ∧
    classify #v[0x55, 0x5D] = .linkSetup ∧ dist16 #v[0x55, 0x5D] syncRefLinkSetup = 4 ∧
    dist16 #v[0x55, 0x5D] syncRefStream = 4 ∧
    classify #v[0xFF, 0x52] = .stream ∧ dist16 #v[0xFF, 0x52] syncRefStream = 4 ∧
    classify #v[0x00, 0x77] = .unknown ∧ dist16 #v[0x00, 0x77] syncRefLinkSetup = 5 := by decide

/-- V-BX-10: the ends of the permutation. -/
theorem witness_DeinterleaveMovesEachBitToItsPlace :
    (0 < 368 ∧ intlPi 0 = 0) ∧ (367 < 368 ∧ intlPi 367 = 47) := by decide

/-- V-BX-12: bit 1 of the payload is bit 137 of the transformed payload. -/
theorem witness_FlippedPayloadBitMovesToOneTransformedBit :
    1 < 368 ∧ 137 < 368 ∧ intlPi 1 = 137 ∧ 367 < 368 ∧ intlPi 367 ≠ 367 := by decide

/-- V-GO-6, V-GO-12. -/
theorem witness_GolayDecodeIsBoundedDistanceDecoding :
    golay24Decode 0x5232AD = .ok 0x123 ∧ popcount (0x5232AD#24 ^^^ golayEncode 0x123) = golayT ∧
    golay24Decode 0xF00000 = .uncorrectable := by decide +kernel

theorem witness_GolayCorrectsThreeErrorsAndReportsFour :
    popcount 0x800801#24 ≤ 3 ∧ popcount 0xC00801#24 = 4 := by decide

theorem witness_DepuncturePlacesReceivedBitsAndErasures :
    (([] : Bits) = [] ∨ true ∈ ([] : Bits)) ∧ (bits [1, 0, 1, 1] = [] ∨ true ∈ punctLsf) := by decide

theorem witness_OperandsOutsideTheirRuleAreRefused :
    ([true] ≠ [] ∧ true ∉ [false]) ∧ (syms [1]).length % 2 = 1 ∧ (([0x00] : List Byte) ≠ [] ∧ true ∉ ([] : Bits)) ∧
    (([] : List Byte) = [] ∨ true ∈ ([] : Bits)) ∧ (depuncture (bitsOf []) []).length / 2 < 8 * 1 ∧
    true ∈ [true] ∧ (depuncture (bitsOf [0x00, 0x00]) [true]).length / 2 < 8 * 2 := by decide +kernel

theorem witness_ViterbiAnswersAMostLikelySequence :
    (syms []).length % 2 = 0 ∧ (syms [1, 1, 0, 1, 1, 2, 0, 0]).length % 2 = 0 ∧
    8 ≤ (syms [1, 1, 0, 1, 1, 2, 0, 0]).length ∧ (⟨.free, fun _ _ _ => true⟩ : VitChoice).vend = .free := by decide

theorem witness_ShortSequencesEndingInStateZeroDecodeToZeros :
    (syms [1, 1, 0, 1, 1, 2]).length % 2 = 0 ∧ (syms [1, 1, 0, 1, 1, 2]).length < 8 := by decide

/-- One step received as 1 0: both inputs disagree in one bit. -/
theorem witness_ViterbiChoiceAdmitsEveryMostLikelySequence :
    (syms [1, 0]).length % 2 = 0 ∧ MostLikely .free (syms [1, 0]) [false] ∧ MostLikely .free (syms [1, 0]) [true] := by
  have h : ∀ v, Admissible .free ((syms [1, 0]).length / 2) v → 1 ≤ pathCost v (syms [1, 0]) := by
    rintro v ⟨hv, -⟩
    match v, hv with
    | [true], _ => decide
    | [false], _ => decide
  exact ⟨by decide, ⟨⟨rfl, by simp⟩, h⟩, ⟨⟨rfl, by simp⟩, h⟩⟩

theorem witness_ErrorFreeStreamDecodesToWhatWasSent :
    (4 ≤ (bits [1, 0, 1, 1, 0, 0, 0, 0]).length ∧
      ∀ b ∈ (bits [1, 0, 1, 1, 0, 0, 0, 0]).drop ((bits [1, 0, 1, 1, 0, 0, 0, 0]).length - 4), b = false) ∧
    (4 ≤ (bits [0, 0, 0, 0]).length ∧ ∀ b ∈ (bits [0, 0, 0, 0]).drop ((bits [0, 0, 0, 0]).length - 4), b = false) := by
  decide

/-- As many steps as output bits, and the empty case. -/
theorem witness_ConvdecPacksTheFirstDecodedBits :
    true ∈ [true] ∧ 8 * 1 ≤ (depuncture (bitsOf [0xD6, 0xC0]) [true]).length / 2 ∧
    (([] : List Byte) = [] ∧ 8 * 0 ≤ (depuncture (bitsOf []) []).length / 2) := by decide +kernel

theorem witness_ConvdecInstancesTakeTheirPartOfThePayload :
    (∀ i < 46, 12 ≤ i → byteAt (tabulate 46 fun i => if i < 12 then 0xFF else 0) i = 0) := by decide +kernel

/-- V-LI-8: sub-block 0 is the first failing one; V-LI-7: sub-block 1 is. -/
theorem witness_LichUnpackChecksAllCodewordsBeforeTheNumber_abandoned :
    golay24Decode (lichCodeword (hex 12 0x1230A3456B6C789810AC0D5E) 0) = .uncorrectable ∧
    golay24Decode (lichCodeword (hex 12 0x1230AC456B63789810A40E84) 0) ≠ .uncorrectable ∧
    golay24Decode (lichCodeword (hex 12 0x1230AC456B63789810A40E84) 1) = .uncorrectable := by decide +kernel

/-- V-LI-3 and V-LI-4: the last number taken, and the first refused. -/
theorem witness_LichUnpackChecksAllCodewordsBeforeTheNumber_decoded :
    golay24Decode (lichCodeword (hex 12 0x1230AC456B6C789810AA060A) 0) = .ok 0x123 ∧
    golay24Decode (lichCodeword (hex 12 0x1230AC456B6C789810AA060A) 1) = .ok 0x456 ∧
    golay24Decode (lichCodeword (hex 12 0x1230AC456B6C789810AA060A) 2) = .ok 0x789 ∧
    golay24Decode (lichCodeword (hex 12 0x1230AC456B6C789810AA060A) 3) = .ok 0xAA0 ∧
    golay24Decode (lichCodeword (hex 12 0x1230AC456B6C789810AC0D5E) 3) = .ok 0xAC0 ∧
    ((((0x123#12 ++ 0x456#12) ++ (0x789#12 ++ 0xAA0#12)).extractLsb' 5 3 : BitVec 3)).toNat = 5 ∧
    ((((0x123#12 ++ 0x456#12) ++ (0x789#12 ++ 0xAC0#12)).extractLsb' 5 3 : BitVec 3)).toNat = 6 := by
  decide +kernel

theorem witness_SegmentIsTheConcatenationOfTheFourValues :
    (0x191A1BF305A0#48) = (0x191#12 ++ 0xA1B#12) ++ (0xF30#12 ++ 0x5A0#12) := by decide

/-- Segment 0 and segment 5 from an empty bitmap; segment 2 as the sixth, valid and not valid. -/
theorem witness_LichAccumulateCopiesMarksAndCompletes :
    State.reset.dec.segmap ||| (1#6 <<< (0 : Fin 6).val) ≠ 0x3F#6 ∧
    State.reset.dec.segmap ||| (1#6 <<< (5 : Fin 6).val) ≠ 0x3F#6 ∧
    missingTwo.dec.segmap ||| (1#6 <<< (2 : Fin 6).val) = 0x3F#6 ∧
    lsfValid (copySegment missingTwo.dec.lsfScratch (segmentOf frameL 2) 2) = true ∧
    lsfValid (copySegment missingTwo.dec.lsfScratch (zeroBytes 5) 2) = false := by decide +kernel

/-- Segment 5 again, with its own content. -/
theorem witness_RepeatedSegmentOverwritesItsBytesOnly :
    missingTwo.dec.segmap ≠ 0x3F#6 ∧ missingTwo.dec.segmap.getLsbD (5 : Fin 6).val = true ∧
    ∀ k < 5, byteAt missingTwo.dec.lsfScratch (5 * (5 : Fin 6).val + k) = byteAt (segmentOf frameL 5) k := by
  decide +kernel

/-- The order of program P2, with its repeat, for a valid and for an invalid LSF. -/
theorem witness_SixSegmentsInAnyOrderRebuildTheLsf :
    State.reset.dec.segmap = 0 ∧ (2 : Fin 6) ∉ ([3, 0, 5, 1, 1, 4] : List (Fin 6)) ∧
    (∀ n : Fin 6, n ≠ 2 → n ∈ ([3, 0, 5, 1, 1, 4] : List (Fin 6))) ∧ lsfValid frameL = true ∧
    lsfValid (zeroBytes 30) = false := by decide +kernel

theorem witness_MissingSegmentLeavesTheOthersMarked :
    State.reset.dec.segmap = 0 ∧ (5 : Fin 6) ∉ ([0, 1, 2, 3, 4] : List (Fin 6)) := by decide

/-- A RESET and the sixth segment, alone and by both ways in a frame, change LSF; a link-setup path answers. -/
theorem witness_OnlyThreeThingsWriteTheAdoptedLsf :
    (∃ t, exec .reset missingTwo = .next t ∧ t.dec.lsf ≠ missingTwo.dec.lsf) ∧
    (∃ t, exec (.lichAccumulate (segmentOf frameL 2) 2) missingTwo = .next t ∧ t.dec.lsf ≠ missingTwo.dec.lsf) ∧
    (∃ t, exec (.dfStream syncRefStream (framePayload frameSegment2)) missingTwo = .next t ∧
      t.dec.lsf ≠ missingTwo.dec.lsf) ∧
    (∃ t, exec (.decodeFrame frameSegment2) missingTwo = .next t ∧ t.dec.lsf ≠ missingTwo.dec.lsf) ∧
    (∃ t, exec (.dfLinkSetup syncRefLinkSetup (zeroBytes 46)) missingTwo = .next t) ∧
    classify (frameSync frameLinkSetup) = .linkSetup :=
  ⟨⟨_, rfl, by decide +kernel⟩, ⟨_, rfl, by decide +kernel⟩, ⟨_, rfl, by decide +kernel⟩,
    ⟨_, rfl, by decide +kernel⟩, ⟨_, rfl⟩, by decide +kernel⟩

theorem witness_OtherComponentsHaveOnlyTheirOwnWriters :
    (∃ t, exec .reset missingTwo = .next t ∧ t.dec.stream ≠ missingTwo.dec.stream) ∧
    ∃ t, exec (.lichAccumulate (segmentOf frameL 0) 0) State.reset = .next t ∧
      t.dec.segmap ≠ State.reset.dec.segmap :=
  ⟨⟨_, rfl, by decide +kernel⟩, _, rfl, by decide +kernel⟩

theorem witness_SegmentBitsAreOnlyClearedTogether :
    State.reset.dec.segmap ||| (1#6 <<< (5 : Fin 6).val) ≠ 0x3F#6 ∧
    ∃ t, exec (.lichAccumulate (segmentOf frameL 2) 2) missingTwo = .next t := ⟨by decide, _, rfl⟩

theorem witness_UnitOperationsLeaveTheDecoderState :
    (Instr.lsfValid frameL).format = .unit ∧ (∀ content n, Instr.lsfValid frameL ≠ .lichAccumulate content n) ∧
    ∃ t, exec (.lsfValid frameL) missingTwo = .next t := ⟨rfl, by simp, _, rfl⟩

/-- Each condition is noted by some frame. -/
theorem witness_ConditionsHaveOnlyTheirLocalEffect :
    (∃ t, exec (.decodeFrame (frameOf #v[0x00, 0x77] (zeroBytes 46))) missingTwo = .next t ∧
      t.condition = .syncMismatch) ∧
    (∃ t, exec (.decodeFrame frameZeroStream) missingTwo = .next t ∧
      t.condition = .golayUncorrectable (some 2)) ∧
    (∃ t, exec (.decodeFrame frameSegment6) missingTwo = .next t ∧ t.condition = .segnumInvalid 6) ∧
    ∃ t, exec (.decodeFrame frameSegment2)
        { missingTwo with dec := { missingTwo.dec with lsfScratch := zeroBytes 30 } } = .next t ∧
      t.condition = .lsfInvalid :=
  ⟨⟨_, rfl, by decide +kernel⟩, ⟨_, rfl, by decide +kernel⟩, ⟨_, rfl, by decide +kernel⟩, _, rfl, by decide +kernel⟩

theorem witness_ResultPortIsNeverReadBack :
    issuedTwo.dec = { issuedTwo with result := some (.distance 3) }.dec ∧
    issuedTwo.input = { issuedTwo with result := some (.distance 3) }.input ∧ issuedTwo.input ≠ [] :=
  ⟨rfl, rfl, by simp [issuedTwo]⟩

theorem witness_OpenViterbiChoiceReachesOnlyTheDecodedBytes :
    classify (frameSync frameSegment2) ≠ .linkSetup ∧ classify (frameSync frameLinkSetup) ≠ .stream := by
  decide +kernel

theorem witness_CleanLinkSetupFrameDeliversItsLsf : classify #v[0x55, 0x5D] = .linkSetup := by decide

theorem witness_StreamFrameDeliversItsBytesAndSegment :
    classify #v[0xFF, 0x52] = .stream ∧ popcount 0x800801#24 ≤ 3 ∧ popcount 0x000007#24 ≤ 3 ∧
    popcount 0xE00000#24 ≤ 3 ∧ popcount 0#24 ≤ 3 := by decide

/-- An accepted segment, and a preamble frame. -/
theorem witness_RepeatedFrameChangesNothingMore :
    (∃ t, exec (.decodeFrame frameSegment2) State.reset = .next t ∧ t.dec.segmap ≠ 0) ∧
    ∃ t, exec (.decodeFrame (frameOf #v[0x77, 0x77] (zeroBytes 46))) missingTwo = .next t ∧
      t.dec.segmap = missingTwo.dec.segmap :=
  ⟨⟨_, rfl, by decide +kernel⟩, _, rfl, by decide +kernel⟩

theorem witness_BitPositionsAreMostSignificantFirst : 0 < 8 * 5 ∧ 39 < 8 * 5 ∧ 0 ≠ 39 := by decide

theorem witness_StepRunsTheDecodedOperation :
    decode .command issuedTwo.input = .ok (.decodeFrame frameSegment2) [] ∧ State.reset.input = [] := by
  decide +kernel

theorem witness_StepRefusesExactlyWhatIsNoOperation :
    2 ≤ (0x02#8).toNat ∧ 2 ≤ (0xFF#8).toNat ∧ (List.replicate 47 0x00#8).length < 48 ∧
    ({ State.reset with input := [0x01#8] }.input = 0x01#8 :: [] ∧ ([] : List Byte).length < 48) ∧
    ({ State.reset with input := [0x02#8] }.input = 0x02#8 :: []) ∧ State.reset.input = [] ∧
    ({ State.reset with input := [0x00#8] }.input = 0x00#8 :: []) ∧
    issuedTwo.input = 0x01#8 :: frameSegment2.toList ∧ 48 ≤ frameSegment2.toList.length := by decide +kernel

theorem witness_ScriptRunIsTheCompositionOfItsOperations :
    ∀ i ∈ [Instr.reset, .decodeFrame frameSegment2, .reset], i.format = .command := by simp [Instr.format]

/-- The first and the last reserved command word. -/
theorem witness_TableWordsDecodeToTheirRows : (2 ≤ 0x02 ∧ 0x02 < 256) ∧ (2 ≤ 0xFF ∧ 0xFF < 256) := by decide

theorem witness_DecodeOfEncodeIsTheOperation :
    (Instr.dfStream #v[0xFF, 0x52] (zeroBytes 46)).format ≠ .unit ∧
    (Instr.dfStream #v[0xFF, 0x52] (zeroBytes 46)).wf = true ∧
    ∃ bs, encode (.dfStream #v[0xFF, 0x52] (zeroBytes 46)) = some bs := ⟨by decide, by decide, _, rfl⟩

/-- Two payloads that differ in byte 11, the last that CONVDEC_STREAM does not read, and agree from byte 12 on. -/
theorem witness_DecodeFrameStoresWhatTheConvolutionalDecoderAnswers :
    classify (frameSync frameLinkSetup) = .linkSetup ∧ classify (frameSync frameSegment2) = .stream ∧
    (zeroBytes 46).set 11 0xFF ≠ zeroBytes 46 ∧
    ∀ i < 46, 12 ≤ i → byteAt ((zeroBytes 46).set 11 0xFF) i = byteAt (zeroBytes 46) i := by decide +kernel

theorem witness_EveryDecodedWordIsTheEncodingOfItsOperation :
    decode .command [0x00, 0x01] = .ok .reset [0x01] ∧
    decode .sync frameSegment2.toList = .ok (.dfStream #v[0xFF, 0x5D] (framePayload frameSegment2)) [] := by
  decide +kernel

end Sys2Proof.Tests
end

section
/-! PROOFS. The Decoder State: which operation writes which component (spec/10_state.md R22 to R24, R29,
R34, R36), and the invariant every operation and every step keeps (R26, R27).

Everything rests on two inversions of `exec`: a unit operation other than LICH_ACCUMULATE only answers
(`exec_unit_answers`), and the Decoder State after any operation is one of five (`exec_dec_cases`). -/

namespace Sys2Proof.Machine

/-! ### Operations that only answer -/

theorem execDepuncture_next {r pattern : Bits} {s t : State} (h : execDepuncture r pattern s = .next t) :
    depunctureEnds r pattern = true ∧ t = s.answer (.symbols (depuncture r pattern)) .none := by
  unfold execDepuncture at h
  split at h
  · next hends => exact ⟨hends, (Host.Outcome.next.inj h).symm⟩
  · cases h

theorem execViterbi_next {y : List Sym} {s t : State} (h : execViterbi y s = .next t) :
    y.length % 2 = 0 ∧ t = s.answer (.bits (viterbi vitChoice y)) .none := by
  unfold execViterbi at h
  split at h
  · next heven => exact ⟨heven, (Host.Outcome.next.inj h).symm⟩
  · cases h

theorem execConvdec_next {b : List Byte} {pattern : Bits} {n : Nat} {s t : State}
    (h : execConvdec b pattern n s = .next t) :
    depunctureEnds (bitsOf b) pattern = true ∧ convdecFits b pattern n = true ∧
      t = s.answer (.bytes (convdec vitChoice b pattern n).toList) .none := by
  unfold execConvdec at h
  split at h
  · next hends =>
    split at h
    · next hfits => exact ⟨hends, hfits, (Host.Outcome.next.inj h).symm⟩
    · cases h
  · cases h

/-- Every unit operation but LICH_ACCUMULATE is pure: it ends by answering its caller (10_state.md R34). -/
theorem exec_unit_answers {i : Instr} {s t : State} (hunit : i.format = .unit)
    (hacc : ∀ content n, i ≠ .lichAccumulate content n) (h : exec i s = .next t) :
    ∃ r c, t = s.answer r c := by
  cases i with
  | reset | decodeFrame | dfPreamble | dfLinkSetup | dfStream | dfUnknown => cases hunit
  | lichAccumulate content n => exact absurd rfl (hacc content n)
  | depuncture r pattern => exact ⟨_, _, (execDepuncture_next h).2⟩
  | viterbi y => exact ⟨_, _, (execViterbi_next h).2⟩
  | convdec b pattern n => exact ⟨_, _, (execConvdec_next h).2.2⟩
  | _ => exact ⟨_, _, (Host.Outcome.next.inj h).symm⟩

/-! ### The Decoder State after an operation -/

/-- The operation takes the LINK_SETUP path with the transformed payload `x`: the path row, or DECODE_FRAME
of a frame classified LINK_SETUP (45_frame_decoder.md R171, R173). -/
def TakesLinkSetup (i : Instr) (x : Bytes 46) : Prop :=
  (∃ sync payload, i = .dfLinkSetup sync payload ∧ x = bitxform payload) ∨
    ∃ frame, i = .decodeFrame frame ∧ classify (frameSync frame) = .linkSetup ∧
      x = bitxform (framePayload frame)

/-- The operation takes the STREAM path with the transformed payload `x`: the path row, or DECODE_FRAME of
a frame classified STREAM (45_frame_decoder.md R171, R174). -/
def TakesStream (i : Instr) (x : Bytes 46) : Prop :=
  (∃ sync payload, i = .dfStream sync payload ∧ x = bitxform payload) ∨
    ∃ frame, i = .decodeFrame frame ∧ classify (frameSync frame) = .stream ∧
      x = bitxform (framePayload frame)

/-- DECODE_FRAME leaves the Decoder State, or does to it what one of the two writing paths does. -/
theorem exec_decodeFrame_dec {frame : Bytes 48} {s t : State} (h : exec (.decodeFrame frame) s = .next t) :
    t.dec = s.dec ∨
    (∃ x, TakesLinkSetup (.decodeFrame frame) x ∧ t.dec = linkSetupPath vitChoice x s.dec) ∨
    ∃ x, TakesStream (.decodeFrame frame) x ∧ t.dec = (streamPath vitChoice x s.dec).1 := by
  have ht : t.dec = (decodeFrameWith vitChoice frame s.dec).2.1 := by
    rw [← Host.Outcome.next.inj h, State.finish_dec]
  rcases decodeFrameWith_cases vitChoice frame s.dec with ⟨-, e⟩ | ⟨hc, e⟩ | ⟨hc, e⟩ | ⟨-, e⟩ <;>
    rw [e] at ht
  · exact .inl ht
  · exact .inr (.inl ⟨_, .inr ⟨frame, rfl, hc, rfl⟩, ht⟩)
  · exact .inr (.inr ⟨_, .inr ⟨frame, rfl, hc, rfl⟩, ht⟩)
  · exact .inl ht

/-- All that an operation can do to the Decoder State: nothing, RESET, the LINK_SETUP path, the STREAM path,
or the accumulation of a segment (10_state.md section 4, R36). -/
theorem exec_dec_cases {i : Instr} {s t : State} (h : exec i s = .next t) :
    t.dec = s.dec ∨
    (i = .reset ∧ t.dec = Decoder.cleared) ∨
    (∃ x, TakesLinkSetup i x ∧ t.dec = linkSetupPath vitChoice x s.dec) ∨
    (∃ x, TakesStream i x ∧ t.dec = (streamPath vitChoice x s.dec).1) ∨
    ∃ content n, i = .lichAccumulate content n ∧ t.dec = (accumulate content n s.dec).1 := by
  cases i with
  | reset => exact .inr (.inl ⟨rfl, by rw [← Host.Outcome.next.inj h, State.finish_dec]⟩)
  | decodeFrame frame =>
    rcases exec_decodeFrame_dec h with hd | hl | hs
    · exact .inl hd
    · exact .inr (.inr (.inl hl))
    · exact .inr (.inr (.inr (.inl hs)))
  | dfPreamble | dfUnknown => exact .inl (by rw [← Host.Outcome.next.inj h, State.finish_dec])
  | dfLinkSetup sync payload =>
    exact .inr (.inr (.inl ⟨_, .inl ⟨sync, payload, rfl, rfl⟩,
      by rw [← Host.Outcome.next.inj h, State.finish_dec]⟩))
  | dfStream sync payload =>
    exact .inr (.inr (.inr (.inl ⟨_, .inl ⟨sync, payload, rfl, rfl⟩,
      by rw [← Host.Outcome.next.inj h, State.finish_dec]⟩)))
  | lichAccumulate content n =>
    exact .inr (.inr (.inr (.inr ⟨content, n, rfl, by rw [← Host.Outcome.next.inj h, State.finish_dec]⟩)))
  | _ =>
    obtain ⟨r, c, rfl⟩ := exec_unit_answers rfl (by simp) h
    exact .inl (State.answer_dec s r c)

/-! ### Two facts about the shared operations -/

@[simp] theorem accumulate_stream (content : Bytes 5) (n : Fin 6) (d : Decoder) :
    (accumulate content n d).1.stream = d.stream := by
  rcases accumulate_cases content n d with ⟨-, e⟩ | ⟨-, -, e⟩ | ⟨-, -, e⟩ <;> rw [e]

/-- DECODE_FRAME of a link-setup frame takes the LINK_SETUP path (45_frame_decoder.md R171, R173). -/
theorem decodeFrameWith_linkSetup {frame : Bytes 48} (c : VitChoice) (d : Decoder)
    (hc : classify (frameSync frame) = .linkSetup) :
    decodeFrameWith c frame d = (.linkSetup, linkSetupPath c (bitxform (framePayload frame)) d, .none) := by
  simp only [decodeFrameWith, hc]

/-! ### The invariant of the Decoder State -/

theorem getLsbD_markSegment (map : BitVec 6) (n m : Fin 6) :
    (markSegment map n).getLsbD m.val = (map.getLsbD m.val || decide (m = n)) := by
  simp [markSegment, Fin.ext_iff]

/-- The copy of segment `n` leaves the bytes of every other segment (44_lich.md R157). -/
theorem byteAt_copySegment_of_ne (scratch : Bytes 30) (content : Bytes 5) {n m : Fin 6} (hne : m ≠ n)
    {k : Nat} (hk : k < 5) :
    byteAt (copySegment scratch content n) (5 * m.val + k) = byteAt scratch (5 * m.val + k) := by
  have hval : m.val ≠ n.val := Fin.val_ne_of_ne hne
  rw [byteAt_copySegment _ _ _ (by omega), if_neg (by omega)]

/-- The invariant speaks of the scratch LSF and the bitmap alone. -/
theorem Decoder.Inv.congr {d e : Decoder} (hd : d.Inv) (hmap : e.segmap = d.segmap)
    (hscratch : e.lsfScratch = d.lsfScratch) : e.Inv := by
  unfold Decoder.Inv
  rw [hmap, hscratch]
  exact hd

/-- An empty reassembly meets the invariant. -/
theorem Decoder.inv_of_empty {d : Decoder} (hmap : d.segmap = 0) (hscratch : d.lsfScratch = zeroBytes 30) :
    d.Inv := by
  refine ⟨by rw [hmap]; decide, fun n _ k _ => ?_⟩
  rw [hscratch, byteAt_zeroBytes]

/-- LICH_ACCUMULATE either empties the reassembly, or its incomplete bitmap marks the one segment whose
bytes it wrote. -/
theorem accumulate_inv (content : Bytes 5) (n : Fin 6) {d : Decoder} (hd : d.Inv) :
    (accumulate content n d).1.Inv := by
  obtain ⟨-, hzero⟩ := hd
  rcases accumulate_cases content n d with ⟨hm, e⟩ | ⟨-, -, e⟩ | ⟨-, -, e⟩ <;> rw [e]
  · refine ⟨hm, fun m hclear k hk => ?_⟩
    simp only [getLsbD_markSegment, Bool.or_eq_false_iff, decide_eq_false_iff_not] at hclear
    obtain ⟨hbit, hne⟩ := hclear
    exact (byteAt_copySegment_of_ne d.lsfScratch content hne hk).trans (hzero m hbit k hk)
  · exact Decoder.inv_of_empty rfl rfl
  · exact Decoder.inv_of_empty rfl rfl

theorem applyLich_inv (r : LichResult) {d : Decoder} (hd : d.Inv) : (applyLich r d).1.Inv := by
  rcases applyLich_cases r d with ⟨content, n, -, e⟩ | ⟨-, e⟩ <;> rw [e]
  · exact accumulate_inv content n hd
  · exact hd

theorem exec_inv {i : Instr} {s t : State} (hs : s.dec.Inv) (h : exec i s = .next t) : t.dec.Inv := by
  rcases exec_dec_cases h with e | ⟨-, e⟩ | ⟨x, -, e⟩ | ⟨x, -, e⟩ | ⟨content, n, -, e⟩ <;> rw [e]
  · exact hs
  · exact Decoder.inv_of_empty Decoder.cleared_segmap Decoder.cleared_lsfScratch
  · exact hs.congr (linkSetupPath_segmap ..) (linkSetupPath_lsfScratch ..)
  · exact (applyLich_inv (lichUnpack (lichExtract x)) hs).congr (streamPath_segmap ..)
      (streamPath_lsfScratch ..)
  · exact accumulate_inv content n hs

theorem step_inv {s t : State} (hs : s.dec.Inv) (h : step s = .next t) : t.dec.Inv := by
  rcases step_next_cases h with ⟨-, rfl⟩ | ⟨rest, -, rfl⟩ | ⟨rest, -, -, hrun⟩
  · exact hs
  · exact Decoder.inv_of_empty Decoder.cleared_segmap Decoder.cleared_lsfScratch
  · exact exec_inv (i := .decodeFrame (toBytes 48 rest)) (s := { s with input := rest.drop 48 }) hs hrun

/-! ### Which operation writes which component -/

/-- What a Decoder State `e` is once segment `n` has completed the candidate of `d` and it was adopted
(10_state.md R29, 44_lich.md R159). -/
def Adopts (content : Bytes 5) (n : Fin 6) (d e : Decoder) : Prop :=
  d.segmap ||| (1#6 <<< n.val) = 0x3F#6 ∧ e.lsf = copySegment d.lsfScratch content n ∧
    lsfValid e.lsf = true ∧ e.segmap = 0 ∧ ∀ j < 30, byteAt e.lsfScratch j = 0

/-- Adoption says nothing of `STREAM`. -/
theorem Adopts.congr {content : Bytes 5} {n : Fin 6} {d e e' : Decoder} (h : Adopts content n d e)
    (hlsf : e'.lsf = e.lsf) (hmap : e'.segmap = e.segmap) (hscratch : e'.lsfScratch = e.lsfScratch) :
    Adopts content n d e' := by
  unfold Adopts
  rw [hlsf, hmap, hscratch]
  exact h

/-- The LICH part of a frame writes another `LSF` only by an adoption. -/
theorem applyLich_adopts {r : LichResult} {d : Decoder} (h : (applyLich r d).1.lsf ≠ d.lsf) :
    ∃ content n, r = .segment content n ∧ Adopts content n d (applyLich r d).1 := by
  obtain ⟨content, n, hr, hm, hv, e⟩ := applyLich_lsf_of_ne h
  rw [e]
  exact ⟨content, n, hr, hm, rfl, hv, rfl, fun j _ => byteAt_zeroBytes 30 j⟩

/-- The operation accumulates this segment: LICH_ACCUMULATE, or a STREAM path whose LICH field unpacks to
it. -/
def Accumulates (i : Instr) (content : Bytes 5) (n : Fin 6) : Prop :=
  i = .lichAccumulate content n ∨
    ∃ x, TakesStream i x ∧ lichUnpack (lichExtract x) = .segment content n

/-- An operation that leaves another `LSF` is RESET, took the LINK_SETUP path, or adopted the candidate that
its segment completed (10_state.md R29). -/
theorem exec_lsf_of_ne {i : Instr} {s t : State} (h : exec i s = .next t) (hne : t.dec.lsf ≠ s.dec.lsf) :
    i = .reset ∨ (∃ x, TakesLinkSetup i x) ∨
      ∃ content n, Accumulates i content n ∧ Adopts content n s.dec t.dec := by
  rcases exec_dec_cases h with e | ⟨hi, -⟩ | ⟨x, hx, -⟩ | ⟨x, hx, e⟩ | ⟨content, n, hi, e⟩
  · exact absurd (by rw [e]) hne
  · exact .inl hi
  · exact .inr (.inl ⟨x, hx⟩)
  · rw [e, streamPath_lsf] at hne
    obtain ⟨content, n, hr, hadopts⟩ := applyLich_adopts hne
    refine .inr (.inr ⟨content, n, .inr ⟨x, hx, hr⟩, ?_⟩)
    rw [e]
    exact hadopts.congr (streamPath_lsf ..) (streamPath_segmap ..) (streamPath_lsfScratch ..)
  · rw [e] at hne
    obtain ⟨_, _, ⟨⟩, hadopts⟩ := applyLich_adopts (r := .segment content n) hne
    exact .inr (.inr ⟨content, n, .inl hi, by rw [e]; exact hadopts⟩)

/-- An operation that leaves another `STREAM` is RESET or took the STREAM path (10_state.md R24). -/
theorem exec_stream_of_ne {i : Instr} {s t : State} (h : exec i s = .next t)
    (hne : t.dec.stream ≠ s.dec.stream) : i = .reset ∨ ∃ x, TakesStream i x := by
  rcases exec_dec_cases h with e | ⟨hi, -⟩ | ⟨x, -, e⟩ | ⟨x, hx, -⟩ | ⟨content, n, -, e⟩
  · exact absurd (by rw [e]) hne
  · exact .inl hi
  · exact absurd (by rw [e, linkSetupPath_stream]) hne
  · exact .inr ⟨x, hx⟩
  · exact absurd (by rw [e, accumulate_stream]) hne

/-- An operation that leaves another reassembly is RESET, LICH_ACCUMULATE, or took the STREAM path
(10_state.md R22, R23). -/
theorem exec_reassembly_of_ne {i : Instr} {s t : State} (h : exec i s = .next t)
    (hne : t.dec.lsfScratch ≠ s.dec.lsfScratch ∨ t.dec.segmap ≠ s.dec.segmap) :
    i = .reset ∨ (∃ content n, i = .lichAccumulate content n) ∨ ∃ x, TakesStream i x := by
  rcases exec_dec_cases h with e | ⟨hi, -⟩ | ⟨x, -, e⟩ | ⟨x, hx, -⟩ | ⟨content, n, hi, -⟩
  · simp [e] at hne
  · exact .inl hi
  · simp [e] at hne
  · exact .inr (.inr ⟨x, hx⟩)
  · exact .inr (.inl ⟨content, n, hi⟩)

/-- The STREAM path is taken by its row, or by DECODE_FRAME of a frame classified STREAM. -/
theorem TakesStream.row_or_frame {i : Instr} {x : Bytes 46} (h : TakesStream i x) :
    (∃ sync payload, i = .dfStream sync payload) ∨
      ∃ frame, i = .decodeFrame frame ∧ classify (frameSync frame) = .stream := by
  rcases h with ⟨sync, payload, hi, -⟩ | ⟨frame, hi, hc, -⟩
  · exact .inl ⟨sync, payload, hi⟩
  · exact .inr ⟨frame, hi, hc⟩

/-! ### The obligations -/

/-- Settles O2: the reassembly is empty at reset. -/
theorem resetStateMeetsTheStateInvariant : Obligations.ResetStateMeetsTheStateInvariant :=
  Decoder.inv_of_empty Decoder.cleared_segmap Decoder.cleared_lsfScratch

/-- Settles O4, by the five things an operation can do to the Decoder State. -/
theorem everyOperationKeepsTheStateInvariant : Obligations.EveryOperationKeepsTheStateInvariant :=
  fun _ _ _ => exec_inv

/-- Settles O3: a step is idle, a RESET or a DECODE_FRAME, and each keeps the invariant. -/
theorem everyStepKeepsTheStateInvariant : Obligations.EveryStepKeepsTheStateInvariant :=
  fun _ _ => step_inv

/-- Settles O40: such an operation only answers its caller. -/
theorem unitOperationsLeaveTheDecoderState : Obligations.UnitOperationsLeaveTheDecoderState := by
  intro i s t hunit hacc h
  obtain ⟨r, c, rfl⟩ := exec_unit_answers hunit hacc h
  exact ⟨State.answer_dec s r c, State.answer_input s r c⟩

/-- Settles O38, from the writers of `STREAM` and of the reassembly. -/
theorem otherComponentsHaveOnlyTheirOwnWriters : Obligations.OtherComponentsHaveOnlyTheirOwnWriters := by
  intro i s t h
  refine ⟨fun hne => ?_, fun hne => ?_⟩
  · rcases exec_stream_of_ne h hne with hi | ⟨x, hx⟩
    · exact .inl hi
    · exact .inr hx.row_or_frame
  · rcases exec_reassembly_of_ne h hne with hi | hi | ⟨x, hx⟩
    · exact .inl hi
    · exact .inr (.inl hi)
    · exact .inr (.inr hx.row_or_frame)

/-- Settles O37: the writers of `LSF` are those of `exec_lsf_of_ne`, and the LINK_SETUP path writes `LSF`
alone, by its row and by DECODE_FRAME. -/
theorem onlyThreeThingsWriteTheAdoptedLsf : Obligations.OnlyThreeThingsWriteTheAdoptedLsf := by
  refine ⟨fun i s t h hne => ?_, fun sync payload s t h => ?_, fun frame s hc => ?_⟩
  · rcases exec_lsf_of_ne h hne with hi | ⟨x, ⟨sync, payload, hi, -⟩ | ⟨frame, hi, hc, -⟩⟩ |
        ⟨content, n, hacc, hadopts⟩
    · exact .inl hi
    · exact .inr (.inl ⟨sync, payload, hi⟩)
    · exact .inr (.inr (.inl ⟨frame, hi, hc⟩))
    · refine .inr (.inr (.inr ⟨content, n, ?_, hadopts⟩))
      rcases hacc with hi | ⟨x, ⟨sync, payload, hi, rfl⟩ | ⟨frame, hi, hc, rfl⟩, hr⟩
      · exact .inl hi
      · exact .inr (.inl ⟨sync, payload, hi, hr⟩)
      · exact .inr (.inr ⟨frame, hi, hc, hr⟩)
  · rw [← Host.Outcome.next.inj h, State.finish_dec]
    exact ⟨linkSetupPath_segmap .., linkSetupPath_lsfScratch ..⟩
  · refine ⟨_, rfl, ?_⟩
    rw [State.finish_dec, decodeFrameWith_linkSetup vitChoice s.dec hc]
    exact ⟨linkSetupPath_lsf .., linkSetupPath_segmap .., linkSetupPath_lsfScratch ..⟩

end Sys2Proof.Machine
end

section
/-! PROOFS. Storage and operation order (spec/20_memory.md): scripts of host operations run one after the
other (R50, R53), decoding one frame twice (R51), bit positions (R43), and where the answer of the
convolutional decoder is stored (R48). -/

namespace Sys2Proof.Machine

/-! ### The command decoder on the encoding of a host operation -/

/-- The first `n` bytes of an array's bytes, whatever stands behind them, are the array. -/
theorem toBytes_toList_append {n : Nat} (a : Bytes n) (rest : List Byte) :
    toBytes n (a.toList ++ rest) = a := by
  refine bytes_ext fun i hi => ?_
  rw [toBytes, byteAt_tabulate _ hi, byteAt, List.getD_append _ _ _ _ (by simpa using hi)]

/-- A frame is taken from its own bytes, and leaves those behind it (20_memory.md R47). -/
theorem takeFrame_toList_append (frame : Bytes 48) (rest : List Byte) (f : Bytes 48 → Instr) :
    takeFrame (frame.toList ++ rest) f = .ok (f frame) rest := by
  have hlen : 48 ≤ (frame.toList ++ rest).length := by simp
  rw [takeFrame, if_pos hlen, toBytes_toList_append, List.drop_left' (by simp)]

/-- The command decoder reads the encoding of a host operation as that operation (30_encoding.md R75). -/
theorem decode_command_encode_append {i : Instr} (hi : i.format = .command) (rest : List Byte) :
    decode .command ((encode i).getD [] ++ rest) = .ok i rest := by
  cases i with
  | reset => rfl
  | decodeFrame frame => exact takeFrame_toList_append frame rest .decodeFrame
  | _ => cases hi

theorem encodeScript_cons (i : Instr) (is : List Instr) :
    encodeScript (i :: is) = (encode i).getD [] ++ encodeScript is := List.flatMap_cons

/-! ### A step, and a run of steps -/

theorem fetch_of_decode {input rest : List Byte} {i : Instr} (h : decode .command input = .ok i rest) :
    fetch input = .run i rest := by
  rw [fetch, h]

theorem step_of_decode {s : State} {i : Instr} {rest : List Byte}
    (h : decode .command s.input = .ok i rest) : step s = exec i { s with input := rest } := by
  rw [step, fetch_of_decode h]

theorem step_of_input_nil {s : State} (h : s.input = []) : step s = .next s := by
  rw [step, h]
  rfl

/-- A step of a script runs its first operation, with the rest of the script still issued. -/
theorem step_encodeScript_cons {i : Instr} (hi : i.format = .command) (is : List Instr) (s : State)
    (rest : List Byte) :
    step { s with input := encodeScript (i :: is) ++ rest } =
      exec i { s with input := encodeScript is ++ rest } := by
  refine step_of_decode (s := { s with input := _ }) ?_
  rw [encodeScript_cons, List.append_assoc]
  exact decode_command_encode_append hi _

theorem run_succ_of_next {M : Host.Core} {s u : M.State} (h : M.step s = .next u) (k : Nat) :
    M.run (k + 1) s = M.run k u := by
  rw [Host.Core.run, h]

theorem runOps_cons_of_next {i : Instr} {s u : State} (h : exec i s = .next u) (is : List Instr) :
    runOps (i :: is) s = runOps is u := by
  rw [runOps, h]

/-- A host operation completes, and neither reads nor writes the bytes issued behind it
(20_memory.md R50, log 12). -/
theorem exec_command_next {i : Instr} (hi : i.format = .command) (s : State) :
    ∃ u : State, ∀ input, exec i { s with input := input } = .next { u with input := input } := by
  cases i with
  | reset => exact ⟨s.finish Decoder.cleared none .none, fun _ => rfl⟩
  | decodeFrame frame =>
    exact ⟨s.finish (decodeFrameWith vitChoice frame s.dec).2.1
      (some (.frameType (decodeFrameWith vitChoice frame s.dec).1))
      (decodeFrameWith vitChoice frame s.dec).2.2, fun _ => rfl⟩
  | _ => cases hi

/-- Steps over a script and its operations one after the other end in one state (20_memory.md R53). -/
theorem run_encodeScript (script : List Instr) (s : State) (rest : List Byte)
    (hscript : ∀ i ∈ script, i.format = .command) :
    ∃ t, core.run script.length { s with input := encodeScript script ++ rest } = .next t ∧
      runOps script { s with input := rest } = .next t ∧ t.input = rest := by
  induction script generalizing s with
  | nil => exact ⟨{ s with input := rest }, rfl, rfl, rfl⟩
  | cons i is ih =>
    obtain ⟨hi, his⟩ := List.forall_mem_cons.mp hscript
    obtain ⟨u, hu⟩ := exec_command_next hi s
    obtain ⟨t, hrun, hops, hinput⟩ := ih u his
    have hstep := (step_encodeScript_cons hi is s rest).trans (hu _)
    exact ⟨t, (run_succ_of_next hstep is.length).trans hrun, (runOps_cons_of_next (hu rest) is).trans hops,
      hinput⟩

/-! ### Decoding one frame twice -/

theorem copySegment_copySegment (scratch : Bytes 30) (content : Bytes 5) (n : Fin 6) :
    copySegment (copySegment scratch content n) content n = copySegment scratch content n := by
  refine bytes_ext fun j hj => ?_
  simp only [byteAt_copySegment _ _ _ hj]
  split <;> rfl

/-- The mark is set, not toggled (44_lich.md R158). -/
theorem markSegment_markSegment (map : BitVec 6) (n : Fin 6) :
    markSegment (markSegment map n) n = markSegment map n := by
  simp only [markSegment, BitVec.or_assoc, BitVec.or_self]

theorem markSegment_zero_ne_complete (n : Fin 6) : markSegment 0 n ≠ 0x3F#6 := by
  revert n
  decide

/-- A segment that leaves a bitmap which is not empty, or is the one it found, did not complete the
candidate: a completed one leaves the empty bitmap, and one segment alone completes no empty one. -/
theorem accumulate_incomplete {content : Bytes 5} {n : Fin 6} {d : Decoder}
    (h : (accumulate content n d).1.segmap ≠ 0 ∨ (accumulate content n d).1.segmap = d.segmap) :
    markSegment d.segmap n ≠ 0x3F#6 := by
  intro hm
  have hzero : (accumulate content n d).1.segmap = 0 := by
    rcases accumulate_cases content n d with ⟨hne, -⟩ | ⟨-, -, e⟩ | ⟨-, -, e⟩
    · exact absurd hm hne
    · rw [e]
    · rw [e]
  rcases h with hne | heq
  · exact hne hzero
  · rw [← heq, hzero] at hm
    exact markSegment_zero_ne_complete n hm

theorem accumulate_of_incomplete {content : Bytes 5} {n : Fin 6} {d : Decoder}
    (h : markSegment d.segmap n ≠ 0x3F#6) :
    accumulate content n d =
      ({ d with lsfScratch := copySegment d.lsfScratch content n, segmap := markSegment d.segmap n }, .none) := by
  rcases accumulate_cases content n d with ⟨-, e⟩ | ⟨hm, -⟩ | ⟨hm, -⟩
  · exact e
  · exact absurd hm h
  · exact absurd hm h

/-- A segment that did not complete the candidate can be accumulated again (20_memory.md R51). -/
theorem accumulate_repeat {content : Bytes 5} {n : Fin 6} {d : Decoder}
    (h : (accumulate content n d).1.segmap ≠ 0 ∨ (accumulate content n d).1.segmap = d.segmap) :
    accumulate content n (accumulate content n d).1 = accumulate content n d := by
  have hm := accumulate_incomplete h
  rw [accumulate_of_incomplete hm,
    accumulate_of_incomplete (by rw [markSegment_markSegment]; exact hm),
    markSegment_markSegment, copySegment_copySegment]

theorem applyLich_repeat {r : LichResult} {d : Decoder}
    (h : (applyLich r d).1.segmap ≠ 0 ∨ (applyLich r d).1.segmap = d.segmap) :
    applyLich r (applyLich r d).1 = applyLich r d := by
  cases r with
  | segment content n => exact accumulate_repeat h
  | golayUncorrectable i => rfl
  | segnumInvalid n => rfl

/-- LICH_ACCUMULATE neither reads nor writes `STREAM`. -/
theorem accumulate_with_stream (content : Bytes 5) (n : Fin 6) (d : Decoder) (b : Bytes 18) :
    accumulate content n { d with stream := b } =
      ({ (accumulate content n d).1 with stream := b }, (accumulate content n d).2) := by
  simp only [accumulate]
  split
  · split <;> rfl
  · rfl

theorem applyLich_with_stream (r : LichResult) (d : Decoder) (b : Bytes 18) :
    applyLich r { d with stream := b } = ({ (applyLich r d).1 with stream := b }, (applyLich r d).2) := by
  cases r with
  | segment content n => exact accumulate_with_stream content n d b
  | golayUncorrectable i => rfl
  | segnumInvalid n => rfl

theorem streamPath_repeat {c : VitChoice} {x : Bytes 46} {d : Decoder}
    (h : (streamPath c x d).1.segmap ≠ 0 ∨ (streamPath c x d).1.segmap = d.segmap) :
    streamPath c x (streamPath c x d).1 = streamPath c x d := by
  rw [streamPath_segmap] at h
  simp only [streamPath, applyLich_with_stream, applyLich_repeat h]

/-- DECODE_FRAME of a stream frame takes the STREAM path (45_frame_decoder.md R171, R174). -/
theorem decodeFrameWith_stream {frame : Bytes 48} (c : VitChoice) (d : Decoder)
    (hc : classify (frameSync frame) = .stream) :
    decodeFrameWith c frame d = (.stream, streamPath c (bitxform (framePayload frame)) d) := by
  simp only [decodeFrameWith, hc]

/-- DECODE_FRAME of the frame just decoded gives the same again, unless the first time completed a
reassembly (20_memory.md R51). -/
theorem decodeFrameWith_repeat {c : VitChoice} {frame : Bytes 48} {d : Decoder}
    (h : (decodeFrameWith c frame d).2.1.segmap ≠ 0 ∨ (decodeFrameWith c frame d).2.1.segmap = d.segmap) :
    decodeFrameWith c frame (decodeFrameWith c frame d).2.1 = decodeFrameWith c frame d := by
  rcases decodeFrameWith_cases c frame d with ⟨-, e⟩ | ⟨hc, e⟩ | ⟨hc, e⟩ | ⟨-, e⟩
  · simp only [e]
  · rw [e, decodeFrameWith_linkSetup c _ hc]
    rfl
  · rw [e] at h ⊢
    rw [decodeFrameWith_stream c _ hc, streamPath_repeat h]
  · simp only [e]

theorem exec_decodeFrame (frame : Bytes 48) (s : State) :
    exec (.decodeFrame frame) s =
      .next (s.finish (decodeFrameWith vitChoice frame s.dec).2.1
        (some (.frameType (decodeFrameWith vitChoice frame s.dec).1))
        (decodeFrameWith vitChoice frame s.dec).2.2) := rfl

/-! ### Bit positions -/

theorem getLsbD_byteAt {n : Nat} (a : Bytes n) (i : Nat) {j : Nat} (hj : j < 8) :
    (byteAt a i).getLsbD j = getbit a (8 * i + (7 - j)) := by
  have hbyte : (8 * i + (7 - j)) / 8 = i := by omega
  have hbit : 7 - (8 * i + (7 - j)) % 8 = j := by omega
  rw [getbit, hbyte, hbit]

theorem getbit_setbit {n : Nat} (a : Bytes n) (p : Nat) (v : Bool) {q : Nat} (hq : q < 8 * n) :
    getbit (setbit a p v) q = if q = p then v else getbit a q := getbit_ofBits n _ hq

theorem getLsbD_eq_true_iff_shift_and_one (b : Byte) (k : Nat) :
    b.getLsbD k = true ↔ (b >>> k) &&& 1#8 = 1#8 := by
  rw [BitVec.and_one_eq_setWidth_ofBool_getLsbD, BitVec.getLsbD_ushiftRight, Nat.add_zero]
  cases b.getLsbD k <;> decide

/-- Bit `k` cleared and `v` placed there: the byte the formula of 20_memory.md R43 makes. -/
theorem getLsbD_clear_or_place (b : Byte) (v : Bool) (k : Nat) {j : Nat} (hj : j < 8) :
    ((b &&& ~~~(1#8 <<< k)) ||| ((if v then 1#8 else 0#8) <<< k)).getLsbD j =
      if j = k then v else b.getLsbD j := by
  have hmask : (1#8 <<< k).getLsbD j = decide (j = k) := by
    rw [← BitVec.twoPow_eq, BitVec.getLsbD_twoPow, ← Bool.decide_and, decide_eq_decide]
    omega
  have hplaced : ((if v then 1#8 else 0#8) <<< k).getLsbD j = (v && decide (j = k)) := by
    cases v
    · simp
    · simpa using hmask
  rw [BitVec.getLsbD_or, BitVec.getLsbD_and, BitVec.getLsbD_not, hmask, hplaced]
  by_cases hjk : j = k <;> simp [hj, hjk]

theorem byteAt_setbit {n : Nat} (a : Bytes n) {p : Nat} (v : Bool) (hp : p < 8 * n) :
    byteAt (setbit a p v) (p / 8) =
      (byteAt a (p / 8) &&& ~~~(1#8 <<< (7 - p % 8))) ||| ((if v then 1#8 else 0#8) <<< (7 - p % 8)) := by
  refine BitVec.eq_of_getLsbD_eq fun j hj => ?_
  have hpos : 8 * (p / 8) + (7 - j) = p ↔ j = 7 - p % 8 := by omega
  rw [getLsbD_clear_or_place _ _ _ hj, getLsbD_byteAt _ _ hj, getLsbD_byteAt _ _ hj,
    getbit_setbit a p v (by omega)]
  simp only [hpos]

/-! ### What the convolutional decoder of a stream frame reads -/

theorem slice_congr {n start len : Nat} {a b : Bytes n}
    (h : ∀ i < len, byteAt a (start + i) = byteAt b (start + i)) : slice a start len = slice b start len :=
  bytes_ext fun i hi => by rw [byteAt_slice _ _ _ hi, byteAt_slice _ _ _ hi, h i hi]

/-- CONVDEC_STREAM reads bytes 12 to 45 of the payload only (43_viterbi.md R138, 30_encoding.md R61). -/
theorem convdecStream_congr (c : VitChoice) {x x' : Bytes 46}
    (h : ∀ i < 46, 12 ≤ i → byteAt x i = byteAt x' i) : convdecStream c x = convdecStream c x' := by
  have hslice : slice x 12 34 = slice x' 12 34 := slice_congr fun i hi => h (12 + i) (by omega) (by omega)
  rw [convdecStream, convdecStream, streamCoded, streamCoded, hslice]

theorem exec_convdecStream (x : Bytes 46) (s : State) :
    exec (.convdecStream x) s = .next (s.answer (.bytes (convdecStream vitChoice x).toList) .none) := rfl

/-! ### The obligations -/

/-- Settles O50, by the induction over the script in `run_encodeScript`. -/
theorem scriptRunIsTheCompositionOfItsOperations : Obligations.ScriptRunIsTheCompositionOfItsOperations :=
  run_encodeScript

/-- Settles O46: the whole answer of DECODE_FRAME repeats, so the state does. -/
theorem repeatedFrameChangesNothingMore : Obligations.RepeatedFrameChangesNothingMore := by
  intro frame s t h hmap
  obtain rfl := Host.Outcome.next.inj ((exec_decodeFrame frame s).symm.trans h)
  rw [State.finish_dec] at hmap
  rw [exec_decodeFrame, State.finish_dec, decodeFrameWith_repeat hmap]
  rfl

/-- Settles O47, from the bits that an array built from bits has. -/
theorem bitPositionsAreMostSignificantFirst : Obligations.BitPositionsAreMostSignificantFirst := by
  intro n a p v hp
  refine ⟨getLsbD_eq_true_iff_shift_and_one _ _, byteAt_setbit a v hp, ?_, fun q hq hne => ?_⟩
  · rw [getbit_setbit a p v hp, if_pos rfl]
  · rw [getbit_setbit a p v hq, if_neg hne]

/-- Settles O48, through what the fetch makes of the bytes issued. -/
theorem stepRunsTheDecodedOperation : Obligations.StepRunsTheDecodedOperation :=
  ⟨fun _ _ _ => step_of_decode, fun _ => step_of_input_nil⟩

/-- Settles O54: each path stores the bytes its unit operation answers, and CONVDEC_STREAM sees the payload
only through the slice of `convdecStream_congr`. -/
theorem decodeFrameStoresWhatTheConvolutionalDecoderAnswers :
    Obligations.DecodeFrameStoresWhatTheConvolutionalDecoderAnswers := by
  refine ⟨fun frame s hc => ?_, fun frame s hc => ?_, fun x x' s h => ?_⟩
  · refine ⟨_, _, convdecLsf vitChoice (bitxform (framePayload frame)), exec_decodeFrame frame s, rfl,
      rfl, ?_⟩
    rw [State.finish_dec, decodeFrameWith_linkSetup vitChoice s.dec hc]
    rfl
  · refine ⟨_, _, convdecStream vitChoice (bitxform (framePayload frame)), exec_decodeFrame frame s, rfl,
      rfl, ?_⟩
    rw [State.finish_dec, decodeFrameWith_stream vitChoice s.dec hc, streamPath_stream]
  · rw [exec_convdecStream, exec_convdecStream, convdecStream_congr vitChoice h]

end Sys2Proof.Machine
end

section
/-! PROOFS. The encoding (spec/30_encoding.md): the decoder of each format reads exactly the encodings of
its well-formed operations (R60, R62, R75), and a step refuses exactly the bytes that begin none (R76, R209).

Everything about the two decoders rests on `decode_eq_ok_iff`. The four path rows differ in the frame type
their sync field selects and in nothing else here, so they are handled as one row, `pathRow`. -/

namespace Sys2Proof.Machine

/-! ### A raw frame and its two fields -/

@[simp] theorem frameOf_toList (sync : Bytes 2) (payload : Bytes 46) :
    (frameOf sync payload).toList = sync.toList ++ payload.toList := Vector.toList_append

theorem byteAt_frameOf_sync (sync : Bytes 2) (payload : Bytes 46) {i : Nat} (hi : i < 2) :
    byteAt (frameOf sync payload) i = byteAt sync i := by
  rw [byteAt, frameOf_toList, List.getD_append _ _ _ _ (by simpa using hi), byteAt]

theorem byteAt_frameOf_payload (sync : Bytes 2) (payload : Bytes 46) (i : Nat) :
    byteAt (frameOf sync payload) (2 + i) = byteAt payload i := by
  rw [byteAt, frameOf_toList, List.getD_append_right _ _ _ _ (by simp), Vector.length_toList,
    Nat.add_sub_cancel_left, byteAt]

@[simp] theorem frameSync_frameOf (sync : Bytes 2) (payload : Bytes 46) :
    frameSync (frameOf sync payload) = sync :=
  bytes_ext fun i hi => by
    rw [frameSync, byteAt_slice _ _ _ hi, Nat.zero_add, byteAt_frameOf_sync _ _ hi]

@[simp] theorem framePayload_frameOf (sync : Bytes 2) (payload : Bytes 46) :
    framePayload (frameOf sync payload) = payload :=
  bytes_ext fun i hi => by rw [framePayload, byteAt_slice _ _ _ hi, byteAt_frameOf_payload]

/-- The two fields leave no byte of the frame out (30_encoding.md R60). -/
@[simp] theorem frameOf_frameSync_framePayload (frame : Bytes 48) :
    frameOf (frameSync frame) (framePayload frame) = frame := by
  refine bytes_ext fun i hi => ?_
  by_cases hsync : i < 2
  · rw [byteAt_frameOf_sync _ _ hsync, frameSync, byteAt_slice _ _ _ hsync, Nat.zero_add]
  · obtain ⟨k, rfl⟩ := Nat.exists_eq_add_of_le (Nat.le_of_not_lt hsync)
    rw [byteAt_frameOf_payload, framePayload, byteAt_slice _ _ _ (by omega)]

/-! ### The four path rows as one -/

/-- The row of the path that frames of type `t` take (30_encoding.md R62). -/
def pathRow : FrameType → Bytes 2 → Bytes 46 → Instr
  | .preamble => .dfPreamble
  | .linkSetup => .dfLinkSetup
  | .stream => .dfStream
  | .unknown => .dfUnknown

@[simp] theorem pathRow_format (t : FrameType) (sync : Bytes 2) (payload : Bytes 46) :
    (pathRow t sync payload).format = .sync := by cases t <;> rfl

@[simp] theorem pathRow_wf_iff (t : FrameType) (sync : Bytes 2) (payload : Bytes 46) :
    (pathRow t sync payload).wf = true ↔ classify sync = t := by
  cases t <;> exact beq_iff_eq

@[simp] theorem encode_pathRow (t : FrameType) (sync : Bytes 2) (payload : Bytes 46) :
    encode (pathRow t sync payload) = some (frameOf sync payload).toList := by
  rw [frameOf_toList]
  cases t <;> rfl

theorem eq_pathRow_of_format_sync {i : Instr} (hi : i.format = .sync) :
    ∃ t sync payload, i = pathRow t sync payload := by
  cases i with
  | dfPreamble sync payload => exact ⟨.preamble, sync, payload, rfl⟩
  | dfLinkSetup sync payload => exact ⟨.linkSetup, sync, payload, rfl⟩
  | dfStream sync payload => exact ⟨.stream, sync, payload, rfl⟩
  | dfUnknown sync payload => exact ⟨.unknown, sync, payload, rfl⟩
  | _ => cases hi

theorem decodeSync_eq_pathRow (frame : Bytes 48) :
    decodeSync frame = pathRow (classify (frameSync frame)) (frameSync frame) (framePayload frame) := by
  unfold decodeSync
  cases classify (frameSync frame) <;> rfl

/-! ### The rows of each format -/

theorem eq_reset_or_decodeFrame_of_format_command {i : Instr} (hi : i.format = .command) :
    i = .reset ∨ ∃ frame, i = .decodeFrame frame := by
  cases i with
  | reset => exact .inl rfl
  | decodeFrame frame => exact .inr ⟨frame, rfl⟩
  | _ => cases hi

theorem encode_eq_none_of_format_unit {i : Instr} (hi : i.format = .unit) : encode i = none := by
  cases i with
  | reset | decodeFrame | dfPreamble | dfLinkSetup | dfStream | dfUnknown => cases hi
  | _ => rfl

theorem exists_encode_of_format_ne_unit {i : Instr} (hi : i.format ≠ .unit) :
    ∃ bs, encode i = some bs := by
  match hf : i.format with
  | .command =>
    obtain rfl | ⟨frame, rfl⟩ := eq_reset_or_decodeFrame_of_format_command hf
    · exact ⟨_, rfl⟩
    · exact ⟨_, rfl⟩
  | .sync =>
    obtain ⟨t, sync, payload, rfl⟩ := eq_pathRow_of_format_sync hf
    exact ⟨_, encode_pathRow t sync payload⟩
  | .unit => exact absurd hf hi

/-! ### What each decoder accepts -/

/-- The first `n` bytes as an array, and the bytes behind them, are all the bytes. -/
theorem toList_toBytes_append_drop {n : Nat} {bs : List Byte} (h : n ≤ bs.length) :
    (toBytes n bs).toList ++ bs.drop n = bs := by
  have htake : (toBytes n bs).toList = bs.take n := by
    refine List.ext_getElem (by simp [h]) fun i hi _ => ?_
    have hin : i < n := by simpa using hi
    have hibs : i < bs.length := by omega
    simp [toBytes, hibs]
  rw [htake, List.take_append_drop]

/-- Taking a frame drops no byte (20_memory.md R47). -/
theorem takeFrame_eq_ok_iff {bs rest : List Byte} {f : Bytes 48 → Instr} {i : Instr} :
    takeFrame bs f = .ok i rest ↔ ∃ frame, i = f frame ∧ bs = frame.toList ++ rest := by
  constructor
  · intro h
    by_cases hlen : 48 ≤ bs.length
    · rw [takeFrame, if_pos hlen] at h
      obtain ⟨rfl, rfl⟩ := Decoded.ok.inj h
      exact ⟨_, rfl, (toList_toBytes_append_drop hlen).symm⟩
    · rw [takeFrame, if_neg hlen] at h
      cases h
  · rintro ⟨frame, rfl, rfl⟩
    exact takeFrame_toList_append frame rest f

theorem decode_command_reset (rest : List Byte) : decode .command (0x00#8 :: rest) = .ok .reset rest := rfl

theorem decode_command_decodeFrame (rest : List Byte) :
    decode .command (0x01#8 :: rest) = takeFrame rest .decodeFrame := rfl

/-- Every first byte but 0x00 and 0x01 is reserved (30_encoding.md R76). -/
theorem decode_command_reserved {code : Byte} (hcode : 2 ≤ code.toNat) (rest : List Byte) :
    decode .command (code :: rest) = .reject (.reservedCommand code) := by
  have h0 : code ≠ 0x00#8 := by rintro rfl; exact absurd hcode (by decide)
  have h1 : code ≠ 0x01#8 := by rintro rfl; exact absurd hcode (by decide)
  rw [decode, decodeCommand, if_neg h0, if_neg h1]

/-- What the command decoder reads begins with one of the two command bytes. -/
theorem eq_cons_of_decode_command_ok {bs rest : List Byte} {i : Instr} (h : decode .command bs = .ok i rest) :
    (i = .reset ∧ bs = 0x00#8 :: rest) ∨
      ∃ frame, i = .decodeFrame frame ∧ bs = 0x01#8 :: (frame.toList ++ rest) := by
  cases bs with
  | nil => cases h
  | cons code tail =>
    obtain hreserved | h0 | h1 : 2 ≤ code.toNat ∨ code = 0x00#8 ∨ code = 0x01#8 := by bv_omega
    · rw [decode_command_reserved hreserved] at h
      cases h
    · subst h0
      obtain ⟨rfl, rfl⟩ := Decoded.ok.inj h
      exact .inl ⟨rfl, rfl⟩
    · subst h1
      obtain ⟨frame, hi, htail⟩ := takeFrame_eq_ok_iff.mp h
      exact .inr ⟨frame, hi, by rw [htail]⟩

/-- The decoder of a format reads an operation exactly where the bytes begin with the encoding of a
well-formed operation of that format (30_encoding.md R60, R62, R75, R76, R78). -/
theorem decode_eq_ok_iff {f : Format} {bs rest : List Byte} {i : Instr} :
    decode f bs = .ok i rest ↔
      i.format = f ∧ i.wf = true ∧ ∃ e, encode i = some e ∧ bs = e ++ rest := by
  cases f with
  | command =>
    constructor
    · intro h
      obtain ⟨rfl, rfl⟩ | ⟨frame, rfl, rfl⟩ := eq_cons_of_decode_command_ok h
      · exact ⟨rfl, rfl, _, rfl, rfl⟩
      · exact ⟨rfl, rfl, _, rfl, rfl⟩
    · rintro ⟨hf, -, e, he, rfl⟩
      have hdecode := decode_command_encode_append hf rest
      rwa [he, Option.getD_some] at hdecode
  | sync =>
    constructor
    · intro h
      obtain ⟨frame, rfl, rfl⟩ := takeFrame_eq_ok_iff.mp h
      simp [decodeSync_eq_pathRow]
    · rintro ⟨hf, hwf, e, he, rfl⟩
      obtain ⟨t, sync, payload, rfl⟩ := eq_pathRow_of_format_sync hf
      obtain rfl := (pathRow_wf_iff t sync payload).mp hwf
      obtain rfl := Option.some.inj ((encode_pathRow _ sync payload).symm.trans he)
      refine takeFrame_eq_ok_iff.mpr ⟨frameOf sync payload, ?_, rfl⟩
      rw [decodeSync_eq_pathRow, frameSync_frameOf, framePayload_frameOf]
  | unit =>
    refine iff_of_false (fun h => by cases h) ?_
    rintro ⟨hf, -, e, he, -⟩
    rw [encode_eq_none_of_format_unit hf] at he
    cases he

/-! ### A step on bytes that are no operation -/

theorem step_of_reserved {s : State} {code : Byte} {rest : List Byte} (hs : s.input = code :: rest)
    (hcode : 2 ≤ code.toNat) : step s = .refused (.reservedCommand code) := by
  rw [step, hs, fetch, decode_command_reserved hcode]

theorem step_of_truncated {s : State} {rest : List Byte} (hs : s.input = 0x01#8 :: rest)
    (hlen : rest.length < 48) : step s = .refused (.truncatedFrame rest.length) := by
  rw [step, hs, fetch, decode_command_decodeFrame, takeFrame, if_neg (Nat.not_le.mpr hlen)]

/-- A step that has a host operation before it completes (20_memory.md R50). -/
theorem exists_step_of_decode {s : State} {i : Instr} {rest : List Byte}
    (h : decode .command s.input = .ok i rest) : ∃ t, step s = .next t := by
  obtain ⟨hcommand, -, -⟩ := decode_eq_ok_iff.mp h
  obtain ⟨u, hu⟩ := exec_command_next hcommand s
  exact ⟨_, (step_of_decode h).trans (hu rest)⟩

/-! ### The words of the operation table -/

theorem decodeTableWord_of_ok {nbits w : Nat} {f : Format} {bs rest : List Byte} {i : Instr}
    (hbytes : tableWordBytes nbits w = some (f, bs)) (hdecode : decode f bs = .ok i rest) :
    decodeTableWord nbits w = some i := by
  simp only [decodeTableWord, hbytes, hdecode]

theorem decodeTableWord_of_reject {nbits w : Nat} {f : Format} {bs : List Byte} {r : Reject}
    (hbytes : tableWordBytes nbits w = some (f, bs)) (hdecode : decode f bs = .reject r) :
    decodeTableWord nbits w = none := by
  simp only [decodeTableWord, hbytes, hdecode]

theorem decodeTableWord_of_reserved {w : Nat} (hlow : 2 ≤ w) (hhigh : w < 256) :
    decodeTableWord 8 w = none := by
  have hcode : 2 ≤ (BitVec.ofNat 8 w).toNat := by
    rwa [BitVec.toNat_ofNat, Nat.mod_eq_of_lt hhigh]
  exact decodeTableWord_of_reject rfl (decode_command_reserved hcode _)

/-- A 16-bit table word is a sync field, and decodes to the path that field selects (30_encoding.md R62,
log 18). -/
theorem decodeTableWord_sync {w : Nat} {sync : Bytes 2} {t : FrameType}
    (hsync : sync = #v[BitVec.ofNat 8 (w / 256), BitVec.ofNat 8 w]) (ht : classify sync = t) :
    decodeTableWord 16 w = some (pathRow t sync (zeroBytes 46)) := by
  have hdecode : decode .sync (sync.toList ++ List.replicate 46 0) =
      .ok (pathRow t sync (zeroBytes 46)) [] :=
    decode_eq_ok_iff.mpr ⟨pathRow_format .., (pathRow_wf_iff ..).mpr ht, _, encode_pathRow .., by
      simp [zeroBytes]⟩
  subst hsync
  exact decodeTableWord_of_ok rfl hdecode

/-! ### The obligations -/

/-- Settles O51, by the reading of an encoding in `decode_eq_ok_iff`. -/
theorem decodeOfEncodeIsTheOperation : Obligations.DecodeOfEncodeIsTheOperation :=
  ⟨fun _ => exists_encode_of_format_ne_unit, fun _ bs _ hwf he =>
    decode_eq_ok_iff.mpr ⟨rfl, hwf, bs, he, rfl⟩⟩

/-- Settles O52, by the other direction of `decode_eq_ok_iff`. -/
theorem everyDecodedWordIsTheEncodingOfItsOperation :
    Obligations.EveryDecodedWordIsTheEncodingOfItsOperation :=
  fun _ _ _ _ => decode_eq_ok_iff.mp

/-- Settles O49: bytes that begin with an encoding run its operation, which completes; the others are
refused by name. -/
theorem stepRefusesExactlyWhatIsNoOperation : Obligations.StepRefusesExactlyWhatIsNoOperation := by
  refine ⟨fun _ _ _ => step_of_reserved, fun _ _ => step_of_truncated, ?_⟩
  rintro s rest (hs | hs | ⟨hs, hlen⟩)
  · exact ⟨s, step_of_input_nil hs⟩
  · refine exists_step_of_decode (i := .reset) (rest := rest) ?_
    rw [hs, decode_command_reset]
  · refine exists_step_of_decode (i := .decodeFrame (toBytes 48 rest)) (rest := rest.drop 48) ?_
    rw [hs, decode_command_decodeFrame, takeFrame, if_pos hlen]

/-- Settles O53: a command word through its first byte, a sync word through the path it selects. -/
theorem tableWordsDecodeToTheirRows : Obligations.TableWordsDecodeToTheirRows := by
  have hframe : decode .command (0x01#8 :: List.replicate 48 0) = .ok (.decodeFrame (zeroBytes 48)) [] :=
    decode_eq_ok_iff.mpr ⟨rfl, rfl, _, rfl, by simp [zeroBytes]⟩
  refine ⟨decodeTableWord_of_ok rfl (decode_command_reset _), decodeTableWord_of_ok rfl hframe,
    fun _ => decodeTableWord_of_reserved, ?_, ?_, ?_, ?_⟩
  · exact decodeTableWord_sync (t := .preamble) rfl (by decide)
  · exact decodeTableWord_sync (t := .linkSetup) rfl (by decide)
  · exact decodeTableWord_sync (t := .stream) rfl (by decide)
  · exact decodeTableWord_sync (t := .unknown) rfl (by decide)

end Sys2Proof.Machine
end

section
/-! PROOFS. The Frame Type Classifier (spec/40_classifier.md): DIST16 is the Hamming distance of two sync
fields (R90), and CLASSIFY takes the nearest reference within the threshold (R91 to R94).

The distance is read in two ways: as a sum of population counts, whose law under exclusive or
(`popcount_xor_add`) gives parity and the triangle inequality, and as the number of bit positions that differ
(`dist16_eq_countP`), which gives the bounds and the cases 0 and 16. CLASSIFY is tied to a relation,
`IsTypeOf`, that one type exactly meets (`classify_eq_iff`). -/

namespace Sys2Proof.Machine

/-! ### Population counts -/

theorem popcountBelow_eq_countP {w : Nat} (v : BitVec w) (n : Nat) :
    popcountBelow v n = (List.range n).countP v.getLsbD := by
  induction n with
  | zero => rfl
  | succ n ih => cases h : v.getLsbD n <;> simp [popcountBelow, ih, List.range_succ, h]

/-- A position both have is counted twice in the sum and not at all in the exclusive or. -/
theorem popcountBelow_xor_add {w : Nat} (u v : BitVec w) (n : Nat) :
    popcountBelow (u ^^^ v) n + 2 * popcountBelow (u &&& v) n = popcountBelow u n + popcountBelow v n := by
  induction n with
  | zero => rfl
  | succ n ih =>
    have hbit : ∀ x y : Bool, (x ^^ y).toNat + 2 * (x && y).toNat = x.toNat + y.toNat := by decide
    have := hbit (u.getLsbD n) (v.getLsbD n)
    simp only [popcountBelow, BitVec.getLsbD_xor, BitVec.getLsbD_and]
    omega

theorem popcount_xor_add {w : Nat} (u v : BitVec w) :
    popcount (u ^^^ v) + 2 * popcount (u &&& v) = popcount u + popcount v :=
  popcountBelow_xor_add u v w

/-- The differences of two words to a third differ as the words do. -/
theorem xor_xor_xor_cancel_left {w : Nat} (x y z : BitVec w) : (z ^^^ x) ^^^ (z ^^^ y) = x ^^^ y := by
  rw [BitVec.xor_comm z x, BitVec.xor_assoc, ← BitVec.xor_assoc z z, BitVec.xor_self, BitVec.zero_xor]

/-- The population count of a byte, its bits taken most significant first (20_memory.md R43). -/
theorem popcount_byte_eq_countP (x : Byte) :
    popcount x = (List.range 8).countP fun j => x.getLsbD (7 - j) := by
  have hreverse : (List.range 8).reverse = (List.range 8).map (7 - ·) := rfl
  rw [popcount, popcountBelow_eq_countP, ← List.countP_reverse, hreverse, List.countP_map]
  rfl

/-! ### The distance of two sync fields -/

/-- The differing bits of byte `i`, at their bit-string positions. -/
theorem popcount_byteAt_xor_eq_countP {n : Nat} (a b : Bytes n) (i : Nat) :
    popcount (byteAt a i ^^^ byteAt b i) =
      (List.range 8).countP fun j => getbit a (8 * i + j) != getbit b (8 * i + j) := by
  rw [popcount_byte_eq_countP]
  refine List.countP_congr fun j hj => ?_
  have hj : j < 8 := List.mem_range.mp hj
  have hbyte : (8 * i + j) / 8 = i := by omega
  have hbit : (8 * i + j) % 8 = j := by omega
  simp only [getbit, hbyte, hbit, BitVec.getLsbD_xor, Bool.bne_eq_xor]

/-- DIST16 counts the bit positions in which the operands differ (40_classifier.md R90). -/
theorem dist16_eq_countP (a b : Bytes 2) :
    dist16 a b = (List.range 16).countP fun p => getbit a p != getbit b p := by
  have hsplit : List.range 16 = List.range 8 ++ (List.range 8).map (8 + ·) :=
    List.range_add (n := 8) (m := 8)
  have hbyte0 := popcount_byteAt_xor_eq_countP a b 0
  have hbyte1 := popcount_byteAt_xor_eq_countP a b 1
  rw [byteAt_of_lt a (by decide), byteAt_of_lt b (by decide)] at hbyte0 hbyte1
  rw [dist16, hbyte0, hbyte1, hsplit, List.countP_append, List.countP_map]
  simp only [Nat.mul_zero, Nat.zero_add, Nat.mul_one]
  rfl

theorem dist16_le (a b : Bytes 2) : dist16 a b ≤ 16 := by
  rw [dist16_eq_countP]
  exact List.countP_le_length

theorem dist16_eq_zero_iff {a b : Bytes 2} : dist16 a b = 0 ↔ a = b := by
  rw [dist16_eq_countP, List.countP_eq_zero]
  constructor
  · intro hsame
    exact bytes_ext_bits fun p hp => by simpa using hsame p (List.mem_range.mpr hp)
  · rintro rfl
    simp

@[simp] theorem dist16_self (a : Bytes 2) : dist16 a a = 0 := dist16_eq_zero_iff.mpr rfl

theorem dist16_pos_of_ne {a b : Bytes 2} (hne : a ≠ b) : 0 < dist16 a b :=
  Nat.pos_of_ne_zero (mt dist16_eq_zero_iff.mp hne)

theorem dist16_eq_sixteen_iff {a b : Bytes 2} :
    dist16 a b = 16 ↔ ∀ p < 16, getbit a p = !getbit b p := by
  rw [dist16_eq_countP]
  refine (List.countP_eq_length (l := List.range 16)).trans (forall_congr' fun p => ?_)
  rw [List.mem_range, bne_iff_ne, ne_eq, Bool.eq_not]

theorem dist16_comm (a b : Bytes 2) : dist16 a b = dist16 b a := by
  rw [dist16, dist16, BitVec.xor_comm a[0], BitVec.xor_comm a[1]]

/-- The two distances to `ref` exceed the third by twice the bits in which both operands differ from `ref`,
since those are bits in which they agree. -/
theorem dist16_add_eq (a b ref : Bytes 2) :
    ∃ k, dist16 ref a + dist16 ref b = dist16 a b + 2 * k := by
  have hbyte0 := popcount_xor_add (ref[0] ^^^ a[0]) (ref[0] ^^^ b[0])
  have hbyte1 := popcount_xor_add (ref[1] ^^^ a[1]) (ref[1] ^^^ b[1])
  rw [xor_xor_xor_cancel_left] at hbyte0 hbyte1
  refine ⟨popcount ((ref[0] ^^^ a[0]) &&& (ref[0] ^^^ b[0])) +
    popcount ((ref[1] ^^^ a[1]) &&& (ref[1] ^^^ b[1])), ?_⟩
  simp only [dist16]
  omega

theorem dist16_parity (a b c : Bytes 2) : (dist16 c a + dist16 c b) % 2 = dist16 a b % 2 := by
  obtain ⟨k, hk⟩ := dist16_add_eq a b c
  omega

theorem dist16_triangle (a b c : Bytes 2) : dist16 a c ≤ dist16 a b + dist16 b c := by
  obtain ⟨k, hk⟩ := dist16_add_eq a c b
  rw [dist16_comm a b]
  omega

/-! ### The type of a sync field -/

/-- The type a sync field has by its three distances: the nearest reference within the threshold, the earliest
on a tie, and UNKNOWN when there is none (40_classifier.md R91 to R93). -/
def IsTypeOf (a : Bytes 2) : FrameType → Prop
  | .unknown => syncThreshold < dist16 a syncRefPreamble ∧ syncThreshold < dist16 a syncRefLinkSetup ∧
      syncThreshold < dist16 a syncRefStream
  | .preamble => dist16 a syncRefPreamble ≤ syncThreshold ∧
      dist16 a syncRefPreamble ≤ dist16 a syncRefLinkSetup ∧
      dist16 a syncRefPreamble ≤ dist16 a syncRefStream
  | .linkSetup => dist16 a syncRefLinkSetup ≤ syncThreshold ∧
      dist16 a syncRefLinkSetup < dist16 a syncRefPreamble ∧
      dist16 a syncRefLinkSetup ≤ dist16 a syncRefStream
  | .stream => dist16 a syncRefStream ≤ syncThreshold ∧
      dist16 a syncRefStream < dist16 a syncRefPreamble ∧ dist16 a syncRefStream < dist16 a syncRefLinkSetup

theorem classify_isTypeOf (a : Bytes 2) : IsTypeOf a (classify a) := by
  simp only [classify]
  split_ifs <;> simp only [IsTypeOf] <;> omega

/-- The conditions of two types exclude one another. -/
theorem IsTypeOf.unique {a : Bytes 2} {t u : FrameType} (ht : IsTypeOf a t) (hu : IsTypeOf a u) : t = u := by
  by_contra hne
  cases t <;> cases u <;> simp only [IsTypeOf, not_true_eq_false] at ht hu hne <;> omega

theorem classify_eq_iff {a : Bytes 2} {t : FrameType} : classify a = t ↔ IsTypeOf a t :=
  ⟨fun h => h ▸ classify_isTypeOf a, (classify_isTypeOf a).unique⟩

theorem classifyCondition_eq_ite (t : FrameType) :
    classifyCondition t = if t = .unknown then .syncMismatch else .none := by
  cases t <;> rfl

theorem exec_dist16 (a b : Bytes 2) (s : State) :
    exec (.dist16 a b) s = .next (s.answer (.distance (dist16 a b)) .none) := rfl

theorem exec_classify (a : Bytes 2) (s : State) :
    exec (.classify a) s = .next (s.answer (.frameType (classify a)) (classifyCondition (classify a))) := rfl

/-! ### The obligations -/

/-- Settles O9: the count of differing positions, and the laws of the distance. -/
theorem distanceCountsDifferingSyncBits : Obligations.DistanceCountsDifferingSyncBits :=
  ⟨fun a b s => ⟨dist16 a b, exec_dist16 a b s,
      (dist16_eq_countP a b).trans List.countP_eq_length_filter,
      dist16_le a b, dist16_eq_zero_iff, dist16_eq_sixteen_iff⟩,
    fun a b c => ⟨dist16_comm a b, dist16_triangle a b c, dist16_parity a b c⟩⟩

/-- Settles O10: the four clauses are `classify_eq_iff` at the four types. -/
theorem classifyTakesTheNearestReferenceWithinTheThreshold :
    Obligations.ClassifyTakesTheNearestReferenceWithinTheThreshold := by
  refine fun a s => ⟨classify a, ?_, classify_eq_iff, classify_eq_iff, classify_eq_iff, classify_eq_iff⟩
  rw [exec_classify, classifyCondition_eq_ite, State.answer]

/-- Settles O11 as R94 derives it: the three references are distinct, so each is at distance 0 from itself and
at a positive distance from the others. -/
theorem exactSyncWordsClassifyAtDistanceZero : Obligations.ExactSyncWordsClassifyAtDistanceZero := by
  have hlinkSetup : 0 < dist16 syncRefLinkSetup syncRefPreamble := dist16_pos_of_ne (by decide)
  have hstreamPreamble : 0 < dist16 syncRefStream syncRefPreamble := dist16_pos_of_ne (by decide)
  have hstreamLinkSetup : 0 < dist16 syncRefStream syncRefLinkSetup := dist16_pos_of_ne (by decide)
  refine ⟨⟨dist16_self _, classify_eq_iff.mpr ?_⟩, ⟨dist16_self _, classify_eq_iff.mpr ?_⟩,
    ⟨dist16_self _, classify_eq_iff.mpr ?_⟩⟩
  · simp [IsTypeOf]
  · simp [IsTypeOf, hlinkSetup]
  · simp [IsTypeOf, hstreamPreamble, hstreamLinkSetup]

end Sys2Proof.Machine
end

section
/-! PROOFS. The Bit Transform Stage (spec/41_bit_transform.md): DECORRELATE, DEINTERLEAVE and their
composition BITXFORM (R100 to R105), and what a flipped payload bit becomes (R109).

`INTL_PI` undoes itself by arithmetic modulo 368 (`intlPi_intlPi`). Everything else is read off one bit at a
time: bit `i` of the transformed payload is bit `INTL_PI(i)` of the payload, exclusive-ored with that bit of
the sequence (`getbit_bitxform`). -/

namespace Sys2Proof.Machine

/-! ### The permutation -/

theorem intlPi_lt (i : Nat) : intlPi i < 368 := Nat.mod_lt _ (by decide)

/-- Applied twice, the formula of R102 leaves `i + 184 * i * (i + 1)` modulo 368: the powers above the second
carry the factor 92 * 92 = 23 * 368. Since `i * (i + 1)` is even, the second summand vanishes as well. -/
theorem intlPi_intlPi {i : Nat} (h : i < 368) : intlPi (intlPi i) = i := by
  obtain ⟨k, hk⟩ := (Nat.even_mul_succ_self i).two_dvd
  have hmod : intlPi i ≡ 45 * i + 92 * i * i [MOD 368] := Nat.mod_modEq _ _
  have hexpand : 45 * (45 * i + 92 * i * i) + 92 * (45 * i + 92 * i * i) * (45 * i + 92 * i * i) =
      i + 368 * (5 * i + 517 * i ^ 2 + 2070 * i ^ 3 + 2116 * i ^ 4 + k) := by
    linear_combination 184 * hk
  calc intlPi (intlPi i)
      = (45 * (45 * i + 92 * i * i) + 92 * (45 * i + 92 * i * i) * (45 * i + 92 * i * i)) % 368 :=
        (hmod.mul_left 45).add ((hmod.mul_left 92).mul hmod)
    _ = i := by rw [hexpand, Nat.add_mul_mod_self_left, Nat.mod_eq_of_lt h]

theorem intlPi_eq_iff {i j : Nat} (hi : i < 368) (hj : j < 368) : intlPi i = j ↔ i = intlPi j :=
  ⟨fun h => h ▸ (intlPi_intlPi hi).symm, fun h => h ▸ intlPi_intlPi hj⟩

/-! ### One bit of a transformed payload -/

/-- DECORRELATE acts on every bit alone. -/
theorem getbit_decorrelate (p : Bytes 46) {i : Nat} (h : i < 368) :
    getbit (decorrelate p) i = (getbit p i ^^ getbit decorrSeq i) := by
  rw [getbit, byteAt_decorrelate p (by omega), BitVec.getLsbD_xor, getbit, getbit]

theorem getbit_deinterleave_intlPi (p : Bytes 46) {i : Nat} (h : i < 368) :
    getbit (deinterleave p) (intlPi i) = getbit p i := by
  rw [getbit_deinterleave p (intlPi_lt i), intlPi_intlPi h]

theorem getbit_bitxform (p : Bytes 46) {i : Nat} (h : i < 368) :
    getbit (bitxform p) i = (getbit p (intlPi i) ^^ getbit decorrSeq (intlPi i)) := by
  rw [bitxform, getbit_deinterleave _ h, getbit_decorrelate _ (intlPi_lt i)]

/-- Twice BITXFORM brings each bit back to its place with two bits of the sequence on it. -/
theorem getbit_bitxform_bitxform (p : Bytes 46) {i : Nat} (h : i < 368) :
    getbit (bitxform (bitxform p)) i = ((getbit p i ^^ getbit decorrSeq i) ^^ getbit decorrSeq (intlPi i)) := by
  rw [getbit_bitxform _ h, getbit_bitxform _ (intlPi_lt i), intlPi_intlPi h]

/-! ### What undoes what -/

/-- R101. -/
@[simp] theorem decorrelate_decorrelate (p : Bytes 46) : decorrelate (decorrelate p) = p := by
  refine bytes_ext fun i hi => ?_
  rw [byteAt_decorrelate _ hi, byteAt_decorrelate _ hi, BitVec.xor_assoc, BitVec.xor_self, BitVec.xor_zero]

/-- R104. -/
@[simp] theorem deinterleave_deinterleave (p : Bytes 46) : deinterleave (deinterleave p) = p := by
  refine bytes_ext_bits fun i hi => ?_
  rw [getbit_deinterleave _ hi, getbit_deinterleave_intlPi p hi]

@[simp] theorem txTransform_bitxform (p : Bytes 46) : txTransform (bitxform p) = p := by
  rw [txTransform, bitxform, deinterleave_deinterleave, decorrelate_decorrelate]

@[simp] theorem bitxform_txTransform (x : Bytes 46) : bitxform (txTransform x) = x := by
  rw [txTransform, bitxform, decorrelate_decorrelate, deinterleave_deinterleave]

/-- The two halves do not commute (R105): position 4 and the position it is swapped with carry different bits
of the sequence, so no payload has its bit 4 back after two rounds. -/
theorem bitxform_bitxform_ne (p : Bytes 46) : bitxform (bitxform p) ≠ p := by
  intro h
  have hclear : getbit decorrSeq 4 = false := by decide
  have hset : getbit decorrSeq (intlPi 4) = true := by decide
  have hbit := getbit_bitxform_bitxform p (i := 4) (by decide)
  rw [h, hclear, hset] at hbit
  simp at hbit

/-- A flipped payload bit becomes one flipped bit of the transformed payload (R109). -/
theorem getbit_bitxform_flip (a : Bytes 46) {p q : Nat} (hp : p < 368) (hq : q < 368) :
    getbit (bitxform (setbit a p (!getbit a p))) q =
      if q = intlPi p then !getbit (bitxform a) q else getbit (bitxform a) q := by
  rw [getbit_bitxform _ hq, getbit_bitxform _ hq, getbit_setbit a p _ (intlPi_lt q)]
  by_cases h : intlPi q = p
  · rw [if_pos h, if_pos ((intlPi_eq_iff hq hp).mp h), h, Bool.not_xor]
  · rw [if_neg h, if_neg (mt (intlPi_eq_iff hq hp).mpr h)]

/-! ### The three operations -/

theorem exec_decorrelate (p : Bytes 46) (s : State) :
    exec (.decorrelate p) s = .next (s.answer (.bytes (decorrelate p).toList) .none) := rfl

theorem exec_deinterleave (p : Bytes 46) (s : State) :
    exec (.deinterleave p) s = .next (s.answer (.bytes (deinterleave p).toList) .none) := rfl

theorem exec_bitxform (p : Bytes 46) (s : State) :
    exec (.bitxform p) s = .next (s.answer (.bytes (bitxform p).toList) .none) := rfl

/-! ### The obligations -/

/-- Settles O12. -/
theorem decorrelateXorsEveryPayloadByte : Obligations.DecorrelateXorsEveryPayloadByte :=
  fun p s => ⟨decorrelate p, exec_decorrelate p s, fun _ hi => byteAt_decorrelate p hi⟩

/-- Settles O13: the exclusive or cancels, and `INTL_PI` undoes itself. -/
theorem bothBitTransformsAreInvolutions : Obligations.BothBitTransformsAreInvolutions :=
  fun p => ⟨decorrelate_decorrelate p, deinterleave_deinterleave p⟩

/-- Settles O14: the model reads bit `INTL_PI(i)` where R103 writes it, which agree as `INTL_PI` undoes
itself. -/
theorem deinterleaveMovesEachBitToItsPlace : Obligations.DeinterleaveMovesEachBitToItsPlace :=
  fun p s => ⟨deinterleave p, exec_deinterleave p s,
    fun i hi => ⟨intlPi_lt i, getbit_deinterleave_intlPi p hi⟩⟩

/-- Settles O15: `txTransform` is the inverse of `bitxform` on both sides; the all-zero payload does not come
back after two rounds. -/
theorem bitTransformIsABijectionButNoInvolution : Obligations.BitTransformIsABijectionButNoInvolution :=
  ⟨fun p s => ⟨bitxform p, exec_bitxform p s, rfl, txTransform_bitxform p⟩,
    bitxform_txTransform, zeroBytes 46, bitxform_bitxform_ne _⟩

/-- Settles O16. -/
theorem flippedPayloadBitMovesToOneTransformedBit : Obligations.FlippedPayloadBitMovesToOneTransformedBit :=
  fun a _ _ hp hq => getbit_bitxform_flip a hp hq

end Sys2Proof.Machine
end

section
/-! PROOFS. The Golay code and its decoder (spec/42_golay.md): linearity and the codeword test (R116, R117),
bounded-distance decoding (R118 to R121) and the table form (R123).

The candidates of both decoders are lists of words of bounded weight (`mem_wordsUpTo`). The minimum distance 8
of the default generator needs no search over the 4096 codewords: the twelve rows have weights divisible by 4
and overlap one another in an even number of places, so by linearity every codeword has a weight divisible
by 4; and one of weight 4 would have at most two 1 bits in its data half or in its parity half, each of which
determines the other half. -/

namespace Sys2Proof.Machine

/-! ### Weights -/

theorem popcount_eq_countP {w : Nat} (v : BitVec w) : popcount v = (List.range w).countP v.getLsbD :=
  popcountBelow_eq_countP v w

theorem popcount_append {m n : Nat} (x : BitVec m) (y : BitVec n) :
    popcount (x ++ y) = popcount x + popcount y := by
  have hlow : (List.range n).countP (x ++ y).getLsbD = (List.range n).countP y.getLsbD :=
    List.countP_congr fun i hi => by rw [BitVec.getLsbD_append, if_pos (List.mem_range.mp hi)]
  have hhigh : (List.range m).countP ((x ++ y).getLsbD ∘ (n + ·)) = (List.range m).countP x.getLsbD :=
    List.countP_congr fun i _ => by simp [BitVec.getLsbD_append]
  have hsplit : List.range (m + n) = List.range n ++ (List.range m).map (n + ·) := by
    rw [Nat.add_comm, List.range_add]
  rw [popcount_eq_countP, popcount_eq_countP, popcount_eq_countP, hsplit, List.countP_append, List.countP_map,
    hlow, hhigh, Nat.add_comm]

theorem popcount_xor_le {w : Nat} (u v : BitVec w) : popcount (u ^^^ v) ≤ popcount u + popcount v := by
  have := popcount_xor_add u v
  omega

theorem popcount_eq_zero_iff {w : Nat} {v : BitVec w} : popcount v = 0 ↔ v = 0 := by
  rw [popcount_eq_countP, List.countP_eq_zero]
  constructor
  · intro hclear
    exact BitVec.eq_of_getLsbD_eq fun i hi => by simpa using hclear i (List.mem_range.mpr hi)
  · rintro rfl
    simp

theorem xor_xor_cancel_right {w : Nat} (x y : BitVec w) : (x ^^^ y) ^^^ y = x := by
  rw [BitVec.xor_assoc, BitVec.xor_self, BitVec.xor_zero]

theorem xor_xor_cancel_left {w : Nat} (x y : BitVec w) : x ^^^ (x ^^^ y) = y := by
  rw [← BitVec.xor_assoc, BitVec.xor_self, BitVec.zero_xor]

/-- A word is an exclusive or of single bits. -/
theorem xor_twoPow_induction {w : Nat} {P : BitVec w → Prop} (zero : P 0)
    (flip : ∀ v, ∀ i < w, P v → P (v ^^^ BitVec.twoPow w i)) (v : BitVec w) : P v := by
  have hbelow : ∀ n ≤ w, ∀ v : BitVec w, (∀ i, n ≤ i → v.getLsbD i = false) → P v := by
    intro n
    induction n with
    | zero =>
      intro _ v hv
      rwa [show v = 0 from BitVec.eq_of_getLsbD_eq fun i _ => by simpa using hv i (Nat.zero_le i)]
    | succ n ih =>
      intro hn v hv
      cases hbit : v.getLsbD n with
      | false =>
        exact ih (by omega) v fun i hi => (Nat.eq_or_lt_of_le hi).elim (· ▸ hbit) (hv i)
      | true =>
        have hflip := flip (v ^^^ BitVec.twoPow w n) n hn <| ih (by omega) _ fun i hi => by
          rcases Nat.eq_or_lt_of_le hi with rfl | hlt
          · simp [hbit, Nat.lt_of_succ_le hn]
          · simp [hv i hlt, Nat.ne_of_lt hlt]
        rwa [xor_xor_cancel_right] at hflip
  exact hbelow w (Nat.le_refl w) v fun i hi => BitVec.getLsbD_of_ge v i hi

/-! ### The words of bounded weight -/

theorem getLsbD_wordOfPositions {w : Nat} (ps : List Nat) {i : Nat} (hi : i < w) :
    (wordOfPositions w ps).getLsbD i = decide (i ∈ ps) := by
  have hfold : ∀ acc : BitVec w,
      (ps.foldl (fun acc p => acc ||| BitVec.twoPow w p) acc).getLsbD i =
        (acc.getLsbD i || decide (i ∈ ps)) := by
    induction ps with
    | nil => simp
    | cons p ps ih =>
      intro acc
      by_cases hp : i = p
      · subst hp
        simp [ih, hi]
      · simp [ih, hp, Ne.symm hp]
  simpa [wordOfPositions] using hfold 0

/-- A word is given by the positions of its 1 bits. -/
theorem wordOfPositions_filter {w : Nat} (v : BitVec w) :
    wordOfPositions w ((List.range w).filter v.getLsbD) = v :=
  BitVec.eq_of_getLsbD_eq fun i hi => by
    rw [getLsbD_wordOfPositions _ hi]
    simp [List.mem_filter, hi]

theorem popcount_wordOfPositions {w : Nat} {ps : List Nat} (hps : ps.Sublist (List.range w)) :
    popcount (wordOfPositions w ps) = ps.length := by
  have hmem : (List.range w).filter (wordOfPositions w ps).getLsbD =
      (List.range w).filter fun i => decide (i ∈ ps) :=
    List.filter_congr fun i hi => getLsbD_wordOfPositions ps (List.mem_range.mp hi)
  have hperm : List.Perm ((List.range w).filter fun i => decide (i ∈ ps)) ps := by
    refine (List.perm_ext_iff_of_nodup (List.nodup_range.filter _) (List.nodup_range.sublist hps)).mpr ?_
    intro i
    simp only [List.mem_filter, decide_eq_true_eq, and_iff_right_iff_imp]
    exact fun hi => hps.subset hi
  rw [popcount_eq_countP, List.countP_eq_length_filter, hmem, hperm.length_eq]

theorem popcount_twoPow {w i : Nat} (hi : i < w) : popcount (BitVec.twoPow w i) = 1 := by
  have hsingle : wordOfPositions w [i] = BitVec.twoPow w i := BitVec.zero_or
  rw [← hsingle, popcount_wordOfPositions (List.singleton_sublist.mpr (List.mem_range.mpr hi)),
    List.length_singleton]

theorem popcount_and_twoPow {w : Nat} (v : BitVec w) {i : Nat} (hi : i < w) :
    popcount (v &&& BitVec.twoPow w i) = (v.getLsbD i).toNat := by
  rw [BitVec.and_twoPow]
  cases v.getLsbD i with
  | false => exact popcount_eq_zero_iff.mpr rfl
  | true => exact popcount_twoPow hi

theorem mem_choose_iff {n : Nat} {l ps : List Nat} : ps ∈ choose n l ↔ ps.Sublist l ∧ ps.length = n := by
  induction n, l using choose.induct generalizing ps with
  | case1 l => simp +contextual [choose, List.length_eq_zero_iff]
  | case2 n => simp +contextual [choose]
  | case3 n p l ihTake ihSkip =>
    rw [choose, List.mem_append, List.mem_map, ihSkip, List.sublist_cons_iff]
    constructor
    · rintro (⟨qs, hqs, rfl⟩ | ⟨hsub, hlen⟩)
      · obtain ⟨hsub, hlen⟩ := ihTake.mp hqs
        exact ⟨.inr ⟨qs, rfl, hsub⟩, by rw [List.length_cons, hlen]⟩
      · exact ⟨.inl hsub, hlen⟩
    · rintro ⟨hsub | ⟨qs, rfl, hsub⟩, hlen⟩
      · exact .inr ⟨hsub, hlen⟩
      · exact .inl ⟨qs, ihTake.mpr ⟨hsub, Nat.succ.inj hlen⟩, rfl⟩

theorem mem_wordsUpTo_iff {w t : Nat} {v : BitVec w} : v ∈ wordsUpTo w t ↔ popcount v ≤ t := by
  simp only [wordsUpTo, List.mem_map, List.mem_flatMap, List.mem_range, mem_choose_iff]
  constructor
  · rintro ⟨ps, ⟨n, hn, hsub, rfl⟩, rfl⟩
    rw [popcount_wordOfPositions hsub]
    exact Nat.le_of_lt_succ hn
  · intro hle
    refine ⟨_, ⟨popcount v, Nat.lt_succ_of_le hle, List.filter_sublist, ?_⟩, wordOfPositions_filter v⟩
    rw [popcount_eq_countP, List.countP_eq_length_filter]

/-! ### Linearity and the codeword test -/

theorem golayParity_xor (a b : BitVec 12) : golayParity (a ^^^ b) = golayParity a ^^^ golayParity b := by
  have hfold : ∀ (ks : List Nat) (x y : BitVec 12),
      ks.foldl (fun acc k => if (a ^^^ b).getLsbD k then acc ^^^ golayP.getD k 0 else acc) (x ^^^ y) =
        ks.foldl (fun acc k => if a.getLsbD k then acc ^^^ golayP.getD k 0 else acc) x ^^^
          ks.foldl (fun acc k => if b.getLsbD k then acc ^^^ golayP.getD k 0 else acc) y := by
    intro ks
    induction ks with
    | nil => exact fun _ _ => rfl
    | cons k ks ih =>
      intro x y
      rw [List.foldl_cons, List.foldl_cons, List.foldl_cons, ← ih, BitVec.getLsbD_xor]
      generalize golayP.getD k 0 = g
      congr 1
      cases a.getLsbD k with
      | false =>
        cases b.getLsbD k with
        | false => rfl
        | true => exact BitVec.xor_assoc x y g
      | true =>
        cases b.getLsbD k with
        | false =>
          show x ^^^ y ^^^ g = x ^^^ g ^^^ y
          ac_rfl
        | true =>
          show x ^^^ y = (x ^^^ g) ^^^ (y ^^^ g)
          rw [BitVec.xor_comm x g, BitVec.xor_comm y g, xor_xor_xor_cancel_left]
  exact hfold (List.range 12) 0 0

theorem golayEncode_xor (a b : BitVec 12) : golayEncode (a ^^^ b) = golayEncode a ^^^ golayEncode b := by
  rw [golayEncode, golayEncode, golayEncode, golayParity_xor, BitVec.xor_append]

theorem golaySyndrome_xor (a b : BitVec 24) :
    golaySyndrome (a ^^^ b) = golaySyndrome a ^^^ golaySyndrome b := by
  simp only [golaySyndrome, BitVec.extractLsb'_xor, golayParity_xor]
  ac_rfl

theorem append_extractLsb'_halves (w : BitVec 24) : w.extractLsb' 12 12 ++ w.extractLsb' 0 12 = w :=
  (BitVec.extractLsb'_append_extractLsb'_eq_extractLsb' rfl).trans BitVec.extractLsb'_eq_self

theorem extractLsb'_golayEncode (d : BitVec 12) : (golayEncode d).extractLsb' 12 12 = d :=
  BitVec.extractLsb'_append_eq_left

/-- A word is a codeword exactly when it is the one of its own data half (R117). -/
theorem golaySyndrome_eq_zero_iff {w : BitVec 24} :
    golaySyndrome w = 0 ↔ golayEncode (w.extractLsb' 12 12) = w := by
  rw [golaySyndrome, BitVec.ofNat_eq_ofNat, BitVec.xor_eq_zero_iff]
  constructor
  · intro h
    rw [golayEncode, h, append_extractLsb'_halves]
  · intro h
    rw [← BitVec.extractLsb'_append_eq_right (a := w.extractLsb' 12 12)
      (b := golayParity (w.extractLsb' 12 12))]
    exact congrArg (BitVec.extractLsb' 0 12) h

theorem golaySyndrome_golayEncode (d : BitVec 12) : golaySyndrome (golayEncode d) = 0 := by
  rw [golaySyndrome_eq_zero_iff, extractLsb'_golayEncode]

/-- Words that differ by a codeword have the same syndrome (R117). -/
theorem golaySyndrome_xor_golayEncode (w : BitVec 24) (d : BitVec 12) :
    golaySyndrome (w ^^^ golayEncode d) = golaySyndrome w := by
  rw [golaySyndrome_xor, golaySyndrome_golayEncode]
  exact BitVec.xor_zero

/-! ### The minimum distance of the default code -/

/-- Row `i` of the generator: the codeword of the data word with bit `i` alone. -/
def golayRow (i : Nat) : BitVec 24 := golayEncode (BitVec.twoPow 12 i)

theorem golayEncode_xor_twoPow (d : BitVec 12) (i : Nat) :
    golayEncode (d ^^^ BitVec.twoPow 12 i) = golayEncode d ^^^ golayRow i := golayEncode_xor d _

theorem golayRow_and_golayRow_even :
    ∀ i < 12, ∀ j < 12, popcount (golayRow i &&& golayRow j) % 2 = 0 := by decide +kernel

theorem popcount_golayRow_mod_four : ∀ i < 12, popcount (golayRow i) % 4 = 0 := by decide +kernel

/-- The code is orthogonal to each of its rows. -/
theorem popcount_golayEncode_and_golayRow_even (d : BitVec 12) {j : Nat} (hj : j < 12) :
    popcount (golayEncode d &&& golayRow j) % 2 = 0 := by
  induction d using xor_twoPow_induction with
  | zero =>
    have hzero : golayEncode 0 = 0 := by decide
    rw [hzero, show (0 : BitVec 24) &&& golayRow j = 0 from BitVec.zero_and, popcount_eq_zero_iff.mpr rfl]
  | flip d i hi ih =>
    have hrows := golayRow_and_golayRow_even i hi j hj
    have hdistrib : (golayEncode d ^^^ golayRow i) &&& golayRow j =
        (golayEncode d &&& golayRow j) ^^^ (golayRow i &&& golayRow j) :=
      BitVec.eq_of_getLsbD_eq fun k _ => by simp [Bool.and_xor_distrib_right]
    have := popcount_xor_add (golayEncode d &&& golayRow j) (golayRow i &&& golayRow j)
    rw [golayEncode_xor_twoPow, hdistrib]
    omega

theorem popcount_golayEncode_mod_four (d : BitVec 12) : popcount (golayEncode d) % 4 = 0 := by
  induction d using xor_twoPow_induction with
  | zero => decide
  | flip d i hi ih =>
    have hrow := popcount_golayRow_mod_four i hi
    have heven := popcount_golayEncode_and_golayRow_even d hi
    have := popcount_xor_add (golayEncode d) (golayRow i)
    rw [golayEncode_xor_twoPow]
    omega

/-- The data half that orthogonality to the rows leaves a codeword with parity half `p`. -/
def golayDataOfParity (p : BitVec 12) : BitVec 12 :=
  wordOfPositions 12 <|
    (List.range 12).filter fun k => popcount (p &&& golayParity (BitVec.twoPow 12 k)) % 2 = 1

theorem golayDataOfParity_golayParity (d : BitVec 12) : golayDataOfParity (golayParity d) = d := by
  refine BitVec.eq_of_getLsbD_eq fun k hk => ?_
  have heven := popcount_golayEncode_and_golayRow_even d hk
  rw [golayRow, golayEncode, golayEncode, BitVec.and_append, popcount_append, popcount_and_twoPow _ hk] at heven
  rw [golayDataOfParity, getLsbD_wordOfPositions _ hk]
  cases hbit : d.getLsbD k with
  | false =>
    rw [hbit, Bool.toNat_false, Nat.zero_add] at heven
    simp [heven]
  | true =>
    rw [hbit, Bool.toNat_true] at heven
    have hodd : popcount (golayParity d &&& golayParity (BitVec.twoPow 12 k)) % 2 = 1 := by omega
    simp [hodd, hk]

/-- The 79 data words of weight at most 2; a `Bool`, which the kernel evaluates fast. -/
theorem popcount_golayEncode_ne_four_of_light_data :
    (wordsUpTo 12 2).all (fun d => popcount (golayEncode d) != 4) = true := by decide +kernel

/-- The 79 parity halves of weight at most 2. -/
theorem popcount_golayDataOfParity_ne_four_of_light_parity :
    (wordsUpTo 12 2).all (fun p => popcount (golayDataOfParity p) + popcount p != 4) = true := by
  decide +kernel

theorem popcount_golayEncode (d : BitVec 12) :
    popcount (golayEncode d) = popcount d + popcount (golayParity d) := popcount_append d _

/-- One half of a word of weight 4 has weight at most 2. -/
theorem popcount_golayEncode_ne_four (d : BitVec 12) : popcount (golayEncode d) ≠ 4 := by
  intro hfour
  have hsum := popcount_golayEncode d
  obtain hdata | hparity : popcount d ≤ 2 ∨ popcount (golayParity d) ≤ 2 := by omega
  · have hne := List.all_eq_true.mp popcount_golayEncode_ne_four_of_light_data d (mem_wordsUpTo_iff.mpr hdata)
    exact bne_iff_ne.mp hne hfour
  · have hne := List.all_eq_true.mp popcount_golayDataOfParity_ne_four_of_light_parity _
      (mem_wordsUpTo_iff.mpr hparity)
    rw [golayDataOfParity_golayParity, ← hsum] at hne
    exact bne_iff_ne.mp hne hfour

/-- Minimum weight 8 (R116). -/
theorem eight_le_popcount_golayEncode {d : BitVec 12} (hd : d ≠ 0) : 8 ≤ popcount (golayEncode d) := by
  have hpos : popcount d ≠ 0 := mt popcount_eq_zero_iff.mp hd
  have hsum := popcount_golayEncode d
  have hmod := popcount_golayEncode_mod_four d
  have hne := popcount_golayEncode_ne_four d
  omega

/-- Two codewords at distances that add up to less than 8 from one word are the same (R119). -/
theorem golayEncode_near_unique {w : BitVec 24} {a b : BitVec 12}
    (h : popcount (w ^^^ golayEncode a) + popcount (w ^^^ golayEncode b) < 8) : a = b := by
  by_contra hne
  have hweight := eight_le_popcount_golayEncode (mt BitVec.xor_eq_zero_iff.mp hne)
  have htriangle := popcount_xor_le (w ^^^ golayEncode a) (w ^^^ golayEncode b)
  rw [xor_xor_xor_cancel_left, ← golayEncode_xor] at htriangle
  omega

/-! ### The decoder -/

theorem golayNear_iff {w : BitVec 24} {d : BitVec 12} :
    golayNear w d = true ↔ popcount (w ^^^ golayEncode d) ≤ golayT := decide_eq_true_iff

/-- A codeword within the radius differs from the word in at most `GOLAY_T` bits of the data half, so it is
among the candidates. -/
theorem mem_candidates_of_near {w : BitVec 24} {d : BitVec 12}
    (h : popcount (w ^^^ golayEncode d) ≤ golayT) :
    d ∈ (wordsUpTo 12 golayT).map (w.extractLsb' 12 12 ^^^ ·) := by
  have hhalves : w ^^^ golayEncode d =
      (w.extractLsb' 12 12 ^^^ d) ++ (w.extractLsb' 0 12 ^^^ golayParity d) := by
    rw [← BitVec.xor_append, append_extractLsb'_halves, golayEncode]
  rw [hhalves, popcount_append] at h
  exact List.mem_map.mpr ⟨w.extractLsb' 12 12 ^^^ d, mem_wordsUpTo_iff.mpr (by omega),
    xor_xor_cancel_left _ _⟩

theorem near_of_golay24Decode_ok {w : BitVec 24} {v : BitVec 12} (h : golay24Decode w = .ok v) :
    popcount (w ^^^ golayEncode v) ≤ golayT := by
  unfold golay24Decode at h
  split at h
  · next d hfind =>
    obtain rfl := GolayResult.ok.inj h
    exact golayNear_iff.mp (List.find?_some hfind)
  · cases h

theorem golay24Decode_eq_uncorrectable_iff {w : BitVec 24} :
    golay24Decode w = .uncorrectable ↔ ∀ v, golayT < popcount (w ^^^ golayEncode v) := by
  constructor
  · intro h v
    by_contra hnear
    rw [Nat.not_lt] at hnear
    unfold golay24Decode at h
    split at h
    · cases h
    · next hfind =>
      exact List.find?_eq_none.mp hfind v (mem_candidates_of_near hnear) (golayNear_iff.mpr hnear)
  · intro hfar
    match hr : golay24Decode w with
    | .uncorrectable => rfl
    | .ok v => exact absurd (near_of_golay24Decode_ok hr) (Nat.not_le.mpr (hfar v))

/-- R118 with the uniqueness of R119. -/
theorem golay24Decode_eq_ok_iff {w : BitVec 24} {d : BitVec 12} :
    golay24Decode w = .ok d ↔ popcount (w ^^^ golayEncode d) ≤ golayT := by
  refine ⟨near_of_golay24Decode_ok, fun hnear => ?_⟩
  match hr : golay24Decode w with
  | .uncorrectable => exact absurd hnear (Nat.not_le.mpr (golay24Decode_eq_uncorrectable_iff.mp hr d))
  | .ok v =>
    have hv := near_of_golay24Decode_ok hr
    rw [golayEncode_near_unique (w := w) (a := v) (b := d) (by rw [golayT] at hnear hv; omega)]

/-- Any error pattern of weight at most 3 is corrected (R121). -/
theorem golay24Decode_correct {e : BitVec 24} (d : BitVec 12) (he : popcount e ≤ 3) :
    golay24Decode (golayEncode d ^^^ e) = .ok d := by
  rw [golay24Decode_eq_ok_iff, BitVec.xor_comm _ e, xor_xor_cancel_right]
  exact he

theorem golay24Decode_uncorrectable_of_four {e : BitVec 24} (d : BitVec 12) (he : popcount e = 4) :
    golay24Decode (golayEncode d ^^^ e) = .uncorrectable := by
  rw [golay24Decode_eq_uncorrectable_iff]
  intro v
  by_contra hnear
  have hd : popcount ((golayEncode d ^^^ e) ^^^ golayEncode d) = 4 := by
    rw [BitVec.xor_comm _ e, xor_xor_cancel_right, he]
  obtain rfl := golayEncode_near_unique (w := golayEncode d ^^^ e) (a := d) (b := v)
    (by rw [golayT] at hnear; omega)
  rw [golayT] at hnear
  omega

/-- The table form answers what bounded-distance decoding answers (R123). -/
theorem golay24DecodeTable_eq (w : BitVec 24) : golay24DecodeTable w = golay24Decode w := by
  unfold golay24DecodeTable
  split
  · next e hfind =>
    have hlight : popcount e ≤ golayT := mem_wordsUpTo_iff.mp (List.mem_of_find?_eq_some hfind)
    have hsyndrome : golaySyndrome e = golaySyndrome w := by simpa using List.find?_some hfind
    have hcodeword : golayEncode ((w ^^^ e).extractLsb' 12 12) = w ^^^ e :=
      golaySyndrome_eq_zero_iff.mp (by rw [golaySyndrome_xor, hsyndrome]; exact BitVec.xor_self)
    refine (golay24Decode_eq_ok_iff.mpr ?_).symm
    rwa [hcodeword, xor_xor_cancel_left]
  · next hfind =>
    refine (golay24Decode_eq_uncorrectable_iff.mpr fun v => ?_).symm
    by_contra hnear
    refine List.find?_eq_none.mp hfind (w ^^^ golayEncode v)
      (mem_wordsUpTo_iff.mpr (Nat.not_lt.mp hnear)) ?_
    rw [golaySyndrome_xor_golayEncode, beq_self_eq_true]

theorem exec_golay24Decode (w : BitVec 24) (s : State) :
    exec (.golay24Decode w) s =
      .next (s.answer (.golay (golay24Decode w)) (golayCondition (golay24Decode w))) := rfl

theorem golayCondition_eq_ite (r : GolayResult) :
    golayCondition r = if r = .uncorrectable then .golayUncorrectable none else .none := by
  cases r <;> rfl

/-! ### The obligations -/

/-- Settles O20: linearity is that of the parity, bit by bit; a word of syndrome 0 is the codeword of its data
half. -/
theorem golaySyndromeTestsCodewordsLinearly : Obligations.GolaySyndromeTestsCodewordsLinearly := by
  refine ⟨fun w => ⟨fun h => ⟨_, golaySyndrome_eq_zero_iff.mp h⟩, ?_⟩, golaySyndrome_xor, golayEncode_xor⟩
  rintro ⟨d, rfl⟩
  exact golaySyndrome_golayEncode d

/-- Settles O17: the candidates the decoder tries are all that can be within the radius. -/
theorem golayDecodeIsBoundedDistanceDecoding : Obligations.GolayDecodeIsBoundedDistanceDecoding := by
  refine fun w s => ⟨golay24Decode w, ?_, fun _ => near_of_golay24Decode_ok,
    golay24Decode_eq_uncorrectable_iff⟩
  rw [exec_golay24Decode, golayCondition_eq_ite, State.answer]

/-- Settles O18, from the minimum distance 8. -/
theorem golayTableFormComputesTheSameFunction : Obligations.GolayTableFormComputesTheSameFunction :=
  golay24DecodeTable_eq

/-- Settles O19, from the minimum distance 8. -/
theorem golayCorrectsThreeErrorsAndReportsFour : Obligations.GolayCorrectsThreeErrorsAndReportsFour :=
  fun d _ => ⟨golay24Decode_correct d, golay24Decode_uncorrectable_of_four d⟩

end Sys2Proof.Machine
end

section
/-! PROOFS. The convolutional decoder on what a transmitter sent (spec/43_viterbi.md): the survivor algorithm
answers a path no dearer than any it may answer (R134, R142), and a punctured stream without errors has one
path of cost 0 (R140).

The first half is the invariant `FrontFor` of the survivors, kept by every trellis step. The second half rests
on `NoAdjacentGaps`: a pattern that never omits two coded positions in a row leaves one bit of every step,
and either bit of a step fixes its input. -/

namespace Sys2Proof.Machine

/-! ### Paths through the trellis -/

/-- The trellis state an input sequence leads to (43_viterbi.md R131). -/
def trellisAfter (u : Bits) : Trellis := u.foldl trellisNext 0

theorem trellisAfter_concat (u : Bits) (b : Bool) :
    trellisAfter (u ++ [b]) = trellisNext (trellisAfter u) b := List.foldl_concat ..

/-- Four flush bits lead to state 0 (43_viterbi.md R130). -/
theorem trellisAfter_flush (u : Bits) : trellisAfter (u ++ List.replicate 4 false) = 0 := by
  have hflush : ∀ s : Trellis, (List.replicate 4 false).foldl trellisNext s = 0 := by decide
  rw [trellisAfter, List.foldl_append, hflush]

theorem encFrom_append (s : Trellis) (u v : Bits) :
    encFrom s (u ++ v) = encFrom s u ++ encFrom (u.foldl trellisNext s) v := by
  induction u generalizing s with
  | nil => rfl
  | cons b u ih => simp [encFrom, ih]

/-- One step more costs what its two symbols cost (43_viterbi.md R133). -/
theorem pathCost_concat {u : Bits} {y : List Sym} (hlen : 2 * u.length = y.length) (b : Bool) (y1 y2 : Sym) :
    pathCost (u ++ [b]) (y ++ [y1, y2]) = pathCost u y + symCost y1 (outG1 (trellisAfter u) b) +
      symCost y2 (outG2 (trellisAfter u) b) := by
  rw [pathCost, enc, encFrom_append, List.zipWith_append (by simp [hlen]), List.sum_append, Nat.add_assoc]
  rfl

/-! ### The two predecessors of a state -/

/-- The predecessor of `t` whose oldest bit is `b` (43_viterbi.md R131). -/
def predecessor (t : Trellis) (b : Bool) : Trellis := t.extractLsb' 0 3 ++ BitVec.ofBool b

theorem trellisNext_predecessor : ∀ t b, trellisNext (predecessor t b) (t.getLsbD 3) = t := by decide

theorem predecessor_trellisNext : ∀ s u, predecessor (trellisNext s u) (s.getLsbD 0) = s := by decide

theorem getLsbD_trellisNext : ∀ s u, (trellisNext s u).getLsbD 3 = u := by decide

theorem getElem_frontStep (tie : Nat → Bool) (front : Front) (y1 y2 : Sym) (t : Trellis) :
    (frontStep tie front y1 y2)[t.toNat] =
      keepCheaper (tie t.toNat) (extendSurvivor front (predecessor t false) (t.getLsbD 3) y1 y2)
        (extendSurvivor front (predecessor t true) (t.getLsbD 3) y1 y2) := by
  rw [frontStep, getElem_tabulate]
  simp only [BitVec.ofNat_toNat, BitVec.setWidth_eq]
  rfl

/-! ### The candidate that is kept -/

theorem exists_keepCheaper_le (later : Bool) {p q : Option Survivor} {a : Survivor}
    (h : p = some a ∨ q = some a) : ∃ r, keepCheaper later p q = some r ∧ r.cost ≤ a.cost := by
  have hsome : (keepCheaper later p q).isSome := by
    rw [keepCheaper_isSome]
    rcases h with rfl | rfl <;> simp
  obtain ⟨r, hr⟩ := Option.isSome_iff_exists.mp hsome
  obtain ⟨-, hp, hq⟩ := keepCheaper_cases hr
  exact ⟨r, hr, h.elim (hp a) (hq a)⟩

theorem foldl_keepCheaper_mem {tie : Nat → Bool} {f : Nat → Option Survivor} {ss : List Nat}
    {best : Option Survivor} {r : Survivor}
    (h : ss.foldl (fun best s => keepCheaper (tie s) best (f s)) best = some r) :
    best = some r ∨ ∃ s ∈ ss, f s = some r := by
  induction ss generalizing best with
  | nil => exact .inl h
  | cons s ss ih =>
    rcases ih h with hkept | ⟨t, ht, hr⟩
    · rcases (keepCheaper_cases hkept).1 with hbest | hs
      · exact .inl hbest
      · exact .inr ⟨s, List.mem_cons_self, hs⟩
    · exact .inr ⟨t, List.mem_cons_of_mem s ht, hr⟩

theorem exists_foldl_keepCheaper_le (tie : Nat → Bool) {f : Nat → Option Survivor} {ss : List Nat}
    {best : Option Survivor} {a : Survivor} (h : best = some a ∨ ∃ s ∈ ss, f s = some a) :
    ∃ r, ss.foldl (fun best s => keepCheaper (tie s) best (f s)) best = some r ∧ r.cost ≤ a.cost := by
  induction ss generalizing best a with
  | nil => exact ⟨a, h.resolve_right (by simp), Nat.le_refl _⟩
  | cons s ss ih =>
    have hnow : (best = some a ∨ f s = some a) ∨ ∃ t ∈ ss, f t = some a := by
      simpa [or_assoc] using h
    rcases hnow with hstep | hlater
    · obtain ⟨kept, hkept, hle⟩ := exists_keepCheaper_le (tie s) hstep
      obtain ⟨r, hr, hrle⟩ := ih (.inl hkept)
      exact ⟨r, hr, Nat.le_trans hrle hle⟩
    · exact ih (.inr hlater)

/-! ### The survivors -/

/-- `p` is a path to state `s` over the symbols `y`, with its cost. -/
def SurvivorOf (y : List Sym) (s : Trellis) (p : Survivor) : Prop :=
  2 * p.path.length = y.length ∧ trellisAfter p.path.reverse = s ∧ p.cost = pathCost p.path.reverse y

/-- The survivors after the symbols `y`: each is a path to its state, and every path over `y` has a survivor at
its end that costs no more (43_viterbi.md R142). -/
structure FrontFor (y : List Sym) (front : Front) : Prop where
  sound : ∀ (s : Trellis) (p : Survivor), front[s.toNat] = some p → SurvivorOf y s p
  least : ∀ u : Bits, 2 * u.length = y.length →
    ∃ p, front[(trellisAfter u).toNat] = some p ∧ p.cost ≤ pathCost u y

theorem frontFor_start : FrontFor [] startFront where
  sound s p h := by
    rw [startFront, getElem_tabulate] at h
    split at h
    · next hs =>
      obtain rfl := Option.some.inj h
      exact ⟨rfl, (BitVec.eq_of_toNat_eq hs).symm, rfl⟩
    · cases h
  least u hu := by
    obtain rfl := List.length_eq_zero_iff.mp (by simpa using hu)
    exact ⟨⟨0, []⟩, rfl, Nat.le_refl _⟩

theorem SurvivorOf.extend {y : List Sym} {s : Trellis} {p : Survivor} (h : SurvivorOf y s p) (b : Bool)
    (y1 y2 : Sym) :
    SurvivorOf (y ++ [y1, y2]) (trellisNext s b)
      ⟨p.cost + symCost y1 (outG1 s b) + symCost y2 (outG2 s b), b :: p.path⟩ := by
  obtain ⟨hlen, rfl, hcost⟩ := h
  refine ⟨by simp [← hlen, Nat.mul_add], ?_, ?_⟩
  · rw [List.reverse_cons, trellisAfter_concat]
  · rw [List.reverse_cons, pathCost_concat (by rwa [List.length_reverse]), hcost]

theorem extendSurvivor_sound {y : List Sym} {front : Front} (hfront : FrontFor y front) {s : Trellis} {b : Bool}
    {y1 y2 : Sym} {r : Survivor} (h : extendSurvivor front s b y1 y2 = some r) :
    SurvivorOf (y ++ [y1, y2]) (trellisNext s b) r := by
  obtain ⟨p, hp, rfl⟩ := Option.map_eq_some_iff.mp h
  exact (hfront.sound s p hp).extend b y1 y2

/-- A survivor extended by an input is a candidate of the state it leads to. -/
theorem exists_frontStep_le {front : Front} {s : Trellis} {p : Survivor} (hp : front[s.toNat] = some p)
    (tie : Nat → Bool) (b : Bool) (y1 y2 : Sym) :
    ∃ r, (frontStep tie front y1 y2)[(trellisNext s b).toNat] = some r ∧
      r.cost ≤ p.cost + symCost y1 (outG1 s b) + symCost y2 (outG2 s b) := by
  have hextend : extendSurvivor front (predecessor (trellisNext s b) (s.getLsbD 0)) b y1 y2 =
      some ⟨p.cost + symCost y1 (outG1 s b) + symCost y2 (outG2 s b), b :: p.path⟩ := by
    rw [predecessor_trellisNext, extendSurvivor, hp, Option.map_some]
  rw [getElem_frontStep, getLsbD_trellisNext]
  refine exists_keepCheaper_le _ (a := ⟨_, b :: p.path⟩) ?_
  cases hold : s.getLsbD 0 with
  | false => exact .inl (hold ▸ hextend)
  | true => exact .inr (hold ▸ hextend)

/-- A trellis step keeps the invariant. -/
theorem FrontFor.step {y : List Sym} {front : Front} (hfront : FrontFor y front) (tie : Nat → Bool)
    (y1 y2 : Sym) : FrontFor (y ++ [y1, y2]) (frontStep tie front y1 y2) where
  sound t r h := by
    rw [getElem_frontStep] at h
    rcases (keepCheaper_cases h).1 with h | h
    · exact trellisNext_predecessor t false ▸ extendSurvivor_sound hfront h
    · exact trellisNext_predecessor t true ▸ extendSurvivor_sound hfront h
  least u hu := by
    rcases List.eq_nil_or_concat' u with rfl | ⟨v, b, rfl⟩
    · simp at hu
    · have hv : 2 * v.length = y.length := by
        simp only [List.length_append, List.length_cons, List.length_nil] at hu
        omega
      obtain ⟨p, hp, hle⟩ := hfront.least v hv
      obtain ⟨r, hr, hrle⟩ := exists_frontStep_le hp tie b y1 y2
      simp only [trellisAfter_concat, pathCost_concat hv]
      exact ⟨r, hr, Nat.le_trans hrle (by omega)⟩

theorem FrontFor.frontAfter {y : List Sym} {front : Front} (hfront : FrontFor y front)
    (tie : Nat → Nat → Bool) (k : Nat) {ys : List Sym} (heven : ys.length % 2 = 0) :
    FrontFor (y ++ ys) (frontAfter tie k front ys) := by
  induction k, front, ys using frontAfter.induct (tie := tie) generalizing y with
  | case1 k front y1 y2 ys ih =>
    have hrest := ih (hfront.step (tie k) y1 y2) (by simp only [List.length_cons] at heven; omega)
    rwa [List.append_assoc] at hrest
  | case2 ys k front hshort =>
    match ys with
    | [] => rwa [List.append_nil]
    | [_] => simp at heven
    | y1 :: y2 :: ys => exact (hshort y1 y2 ys rfl).elim

/-! ### The path the trace-back answers -/

theorem getD_toList_front (front : Front) (s : Trellis) :
    front.toList.getD s.toNat none = front[s.toNat] := by
  rw [List.getD_eq_getElem _ _ (by simpa using s.isLt), Vector.getElem_toList]

theorem finalSurvivor_sound {y : List Sym} {front : Front} (hfront : FrontFor y front) {e : VitEnd}
    {tie : Nat → Bool} {r : Survivor} (h : finalSurvivor e tie front = some r) :
    ∃ s, SurvivorOf y s r ∧ (e = .zero → s = 0) := by
  cases e with
  | zero => exact ⟨0, hfront.sound 0 r h, fun _ => rfl⟩
  | free =>
    obtain ⟨⟨⟩⟩ | ⟨s, hs, hr⟩ := foldl_keepCheaper_mem h
    obtain ⟨t, rfl⟩ : ∃ t : Trellis, t.toNat = s := ⟨⟨s, List.mem_range.mp hs⟩, rfl⟩
    exact ⟨t, hfront.sound t r (getD_toList_front front t ▸ hr), nofun⟩

theorem exists_finalSurvivor_le {y : List Sym} {front : Front} (hfront : FrontFor y front) {e : VitEnd}
    (tie : Nat → Bool) {u : Bits} (hlen : 2 * u.length = y.length) (hend : e = .zero → trellisAfter u = 0) :
    ∃ r, finalSurvivor e tie front = some r ∧ r.cost ≤ pathCost u y := by
  obtain ⟨p, hp, hle⟩ := hfront.least u hlen
  cases e with
  | zero =>
    simp only [hend rfl] at hp
    exact ⟨p, hp, hle⟩
  | free =>
    obtain ⟨r, hr, hrle⟩ := exists_foldl_keepCheaper_le tie (f := fun s => front.toList.getD s none)
      (ss := List.range 16) (best := none) (a := p)
      (.inr ⟨(trellisAfter u).toNat, List.mem_range.mpr (trellisAfter u).isLt, (getD_toList_front front _).trans hp⟩)
    exact ⟨r, hr, Nat.le_trans hrle hle⟩

/-- VITERBI answers a path over all of `y`, one that ends in state 0 where `VIT_END` asks for it, that costs no
more than any other such path `u` (43_viterbi.md R134). -/
theorem viterbi_le (c : VitChoice) {y : List Sym} {u : Bits} (hlen : 2 * u.length = y.length)
    (hend : c.vend = .zero → trellisAfter u = 0) :
    2 * (viterbi c y).length = y.length ∧ (c.vend = .zero → trellisAfter (viterbi c y) = 0) ∧
      pathCost (viterbi c y) y ≤ pathCost u y := by
  have hfront : FrontFor y (frontAfter (c.tie y) 0 startFront y) :=
    frontFor_start.frontAfter (c.tie y) 0 (by omega)
  obtain ⟨r, hr, hle⟩ := exists_finalSurvivor_le hfront (c.tie y (y.length / 2)) hlen hend
  obtain ⟨s, ⟨hrlen, hrend, hcost⟩, hs⟩ := finalSurvivor_sound hfront hr
  have hanswer : viterbi c y = r.path.reverse := by rw [viterbi, hr]
  rw [hanswer, List.length_reverse, hrend, ← hcost]
  exact ⟨hrlen, hs, hle⟩

/-! ### What is received of a coded sequence -/

/-- The symbols of a coded sequence from position `i` on as DEPUNCTURE should put them: erased where the
pattern omits the position (43_viterbi.md R132). -/
def receivedFrom (pattern : Bits) (i : Nat) : Bits → List Sym
  | [] => []
  | c :: cs => (if punctKeeps pattern i then .bit c else .erased) :: receivedFrom pattern (i + 1) cs

@[simp] theorem receivedFrom_length (pattern : Bits) (i : Nat) (cs : Bits) :
    (receivedFrom pattern i cs).length = cs.length := by
  induction cs generalizing i with
  | nil => rfl
  | cons c cs ih => simp [receivedFrom, ih]

/-- The pattern never omits two coded positions in a row. -/
def NoAdjacentGaps (pattern : Bits) : Prop :=
  ∀ i, punctKeeps pattern i = true ∨ punctKeeps pattern (i + 1) = true

/-- One turn of the pattern tells. -/
theorem noAdjacentGaps_of_turn {pattern : Bits} (hpos : 0 < pattern.length)
    (hturn : ∀ i < pattern.length, punctKeeps pattern i = true ∨ punctKeeps pattern (i + 1) = true) :
    NoAdjacentGaps pattern := by
  intro i
  have := hturn (i % pattern.length) (Nat.mod_lt i hpos)
  rwa [punctKeeps, punctKeeps, Nat.mod_mod, Nat.mod_add_mod] at this

theorem punctStream_noAdjacentGaps : NoAdjacentGaps punctStream :=
  noAdjacentGaps_of_turn (by decide) (by decide)

/-- One bit at least is sent of every step. -/
theorem length_le_length_punctureFrom {pattern : Bits} (hgaps : NoAdjacentGaps pattern) (i : Nat) (s : Trellis)
    (u : Bits) : u.length ≤ (punctureFrom pattern i (encFrom s u)).length := by
  induction u generalizing i s with
  | nil => exact Nat.zero_le _
  | cons b u ih =>
    have := ih (i + 1 + 1) (trellisNext s b)
    simp only [encFrom, punctureFrom, List.length_cons]
    rcases hgaps i with hkeep | hkeep <;> rw [if_pos hkeep] <;> split <;>
      simp only [List.length_cons] <;> omega

theorem padEven_cons_cons (x x' : Sym) (y : List Sym) : padEven (x :: x' :: y) = x :: x' :: padEven y := by
  simp only [padEven, List.length_cons, Nat.add_assoc, Nat.add_mod_right]
  split <;> rfl

/-- DEPUNCTURE puts what was sent back to its places; where the last position was omitted, the erasure that
makes the count even stands for it. -/
theorem padEven_depunctureLoop_punctureFrom {pattern : Bits} (hgaps : NoAdjacentGaps pattern) (i : Nat)
    (s : Trellis) (u : Bits) {fuel : Nat} (hfuel : 2 * u.length ≤ fuel) :
    padEven (depunctureLoop pattern fuel i (punctureFrom pattern i (encFrom s u))) =
      receivedFrom pattern i (encFrom s u) := by
  induction u generalizing i s fuel with
  | nil => cases fuel <;> rfl
  | cons b u ih =>
    obtain ⟨fuel, rfl⟩ : ∃ k, fuel = k + 2 := ⟨fuel - 2, by simp only [List.length_cons] at hfuel; omega⟩
    have hrest := ih (i + 2) (trellisNext s b) (fuel := fuel)
      (by simp only [List.length_cons] at hfuel; omega)
    simp only [encFrom, punctureFrom, receivedFrom]
    rw [← hrest]
    cases hfirst : punctKeeps pattern i with
    | false =>
      have hsecond := (hgaps i).resolve_left (by simp [hfirst])
      simp [depunctureLoop, hfirst, hsecond, padEven_cons_cons]
    | true =>
      cases hsecond : punctKeeps pattern (i + 1) with
      | true => simp [depunctureLoop, hfirst, hsecond, padEven_cons_cons]
      | false =>
        cases hsent : punctureFrom pattern (i + 2) (encFrom (trellisNext s b) u) with
        | nil => cases fuel <;> simp [depunctureLoop, hfirst, padEven]
        | cons b' r => simp [depunctureLoop, hfirst, hsecond, padEven_cons_cons]

theorem depuncture_puncture_enc {pattern : Bits} (hgaps : NoAdjacentGaps pattern) (hlen : 2 ≤ pattern.length)
    (u : Bits) : depuncture (puncture pattern (enc u)) pattern = receivedFrom pattern 0 (enc u) := by
  refine padEven_depunctureLoop_punctureFrom hgaps 0 0 u ?_
  rw [Nat.mul_comm 2]
  exact Nat.mul_le_mul (length_le_length_punctureFrom hgaps 0 0 u) hlen

/-! ### The one path without cost -/

theorem symCost_received_eq_zero_iff {kept c c' : Bool} :
    symCost (if kept then .bit c else .erased) c' = 0 ↔ (kept = true → c = c') := by
  cases kept <;> simp [symCost]

theorem outG1_inj {s : Trellis} {b b' : Bool} : outG1 s b = outG1 s b' ↔ b = b' := by simp [outG1]

theorem outG2_inj {s : Trellis} {b b' : Bool} : outG2 s b = outG2 s b' ↔ b = b' := by simp [outG2]

/-- What was sent costs nothing. -/
theorem cost_receivedFrom_self (pattern : Bits) (i : Nat) (cs : Bits) :
    (List.zipWith symCost (receivedFrom pattern i cs) cs).sum = 0 := by
  induction cs generalizing i with
  | nil => rfl
  | cons c cs ih =>
    simp only [receivedFrom, List.zipWith_cons_cons, List.sum_cons, ih, Nat.add_zero]
    exact symCost_received_eq_zero_iff.mpr fun _ => rfl

/-- Nothing else does: the bit received of a step is that of its input, step by step. -/
theorem eq_of_cost_receivedFrom_eq_zero {pattern : Bits} (hgaps : NoAdjacentGaps pattern) {i : Nat}
    {s : Trellis} {u v : Bits} (hlen : v.length = u.length)
    (hcost : (List.zipWith symCost (receivedFrom pattern i (encFrom s u)) (encFrom s v)).sum = 0) : v = u := by
  induction u generalizing i s v with
  | nil => exact List.length_eq_zero_iff.mp hlen
  | cons b u ih =>
    match v with
    | [] => cases hlen
    | b' :: v =>
      simp only [encFrom, receivedFrom, List.zipWith_cons_cons, List.sum_cons, Nat.add_eq_zero_iff,
        symCost_received_eq_zero_iff, outG1_inj, outG2_inj] at hcost
      obtain ⟨hfirst, hsecond, hrest⟩ := hcost
      obtain rfl : b = b' := (hgaps i).elim hfirst hsecond
      rw [ih (Nat.succ.inj hlen) hrest]

/-- A punctured stream without errors decodes to what was sent, for every choice of the open parameters
(43_viterbi.md R140). -/
theorem viterbi_depuncture_puncture_enc {pattern : Bits} (hgaps : NoAdjacentGaps pattern)
    (hlen : 2 ≤ pattern.length) (c : VitChoice) {u : Bits} (hend : c.vend = .zero → trellisAfter u = 0) :
    viterbi c (depuncture (puncture pattern (enc u)) pattern) = u := by
  rw [depuncture_puncture_enc hgaps hlen]
  have hsent : 2 * u.length = (receivedFrom pattern 0 (enc u)).length := by simp
  obtain ⟨hanswer, -, hle⟩ := viterbi_le c hsent hend
  have hzero : pathCost u (receivedFrom pattern 0 (enc u)) = 0 := cost_receivedFrom_self pattern 0 (enc u)
  rw [hzero] at hle
  exact eq_of_cost_receivedFrom_eq_zero hgaps (by omega) (Nat.le_zero.mp hle)

end Sys2Proof.Machine
end

section
/-! PROOFS. A stream frame from transmitter to Decoder State (spec/45_frame_decoder.md R174): its four LICH
codewords decode in spite of three errors each (spec/42_golay.md R121), and its stream bytes come back from
the convolutional decoder (spec/43_viterbi.md R140). -/

namespace Sys2Proof.Machine

/-! ### Bytes and bit strings -/

theorem bitsOf_cons (b : Byte) (bs : List Byte) : bitsOf (b :: bs) = bitsOfByte b ++ bitsOf bs :=
  List.flatMap_cons

@[simp] theorem bitsOfByte_length (b : Byte) : (bitsOfByte b).length = 8 := rfl

@[simp] theorem bitsOf_length (bs : List Byte) : (bitsOf bs).length = 8 * bs.length := by
  induction bs with
  | nil => rfl
  | cons b bs ih =>
    rw [bitsOf_cons, List.length_append, bitsOfByte_length, ih, List.length_cons, Nat.mul_succ, Nat.add_comm]

theorem bitsOfByte_getD (b : Byte) {j : Nat} (hj : j < 8) : (bitsOfByte b).getD j false = b.getLsbD (7 - j) := by
  interval_cases j <;> rfl

/-- Position `p` of a bit string is in byte `p / 8`, the most significant bit first (00_scope.md R18). -/
theorem bitsOf_getD (bs : List Byte) (p : Nat) :
    (bitsOf bs).getD p false = (bs.getD (p / 8) 0).getLsbD (7 - p % 8) := by
  induction bs generalizing p with
  | nil => simp [bitsOf]
  | cons b bs ih =>
    rw [bitsOf_cons]
    by_cases hp : p < 8
    · rw [List.getD_append _ _ _ _ hp, bitsOfByte_getD b hp, Nat.div_eq_of_lt hp, Nat.mod_eq_of_lt hp,
        List.getD_cons_zero]
    · obtain ⟨q, rfl⟩ := Nat.exists_eq_add_of_le' (Nat.le_of_not_lt hp)
      rw [List.getD_append_right _ _ _ _ (Nat.le_add_left 8 q), bitsOfByte_length, Nat.add_sub_cancel,
        ih, Nat.add_div_right q (by decide), Nat.add_mod_right, List.getD_cons_succ]

/-- Packed bits are the bits of the bytes they are packed in (20_memory.md R45). -/
theorem bitsOf_packBits {n : Nat} {u : Bits} (hlen : u.length = 8 * n) : bitsOf (packBits n u).toList = u := by
  refine List.ext_getElem (by simp [hlen]) fun p hp hu => ?_
  rw [← List.getD_eq_getElem _ false hp, ← List.getD_eq_getElem _ false hu, bitsOf_getD]
  exact getbit_packBits n u (hlen ▸ hu)

/-- The bits of an array pack to it, whatever bits stand behind them. -/
theorem packBits_bitsOf_append {n : Nat} (a : Bytes n) (rest : Bits) :
    packBits n (bitsOf a.toList ++ rest) = a := by
  refine bytes_ext_bits fun p hp => ?_
  rw [getbit_packBits _ _ hp, List.getD_append _ _ _ _ (by simpa using hp), bitsOf_getD]
  rfl

/-! ### The stream bytes -/

/-- The pattern alone says how many bits are sent. -/
theorem punctureFrom_length (pattern : Bits) (i : Nat) (cs : Bits) :
    (punctureFrom pattern i cs).length = (List.range cs.length).countP fun k => punctKeeps pattern (i + k) := by
  induction cs generalizing i with
  | nil => rfl
  | cons c cs ih =>
    have hshift : ((fun k => punctKeeps pattern (i + k)) ∘ Nat.succ) =
        fun k => punctKeeps pattern (i + 1 + k) := by
      funext k
      rw [Function.comp_apply, Nat.add_assoc i 1 k, Nat.add_comm 1 k]
    rw [punctureFrom, List.length_cons, List.range_succ_eq_map, List.countP_cons, List.countP_map, hshift,
      Nat.add_zero, ← ih]
    cases punctKeeps pattern i <;> rfl

/-- 148 steps less 24 omitted bits fill the 34 bytes behind the LICH field (43_viterbi.md R138). -/
theorem txCoded_punctStream_length (b : Bytes 18) : (txCoded punctStream b.toList).length = 8 * 34 := by
  have hsteps : (enc (bitsOf b.toList ++ List.replicate 4 false)).length = 296 := by simp
  rw [txCoded, puncture, punctureFrom_length, hsteps]
  decide +kernel

/-- The stream bytes come back without errors, for every choice of the open parameters (43_viterbi.md R140). -/
theorem convdecStream_of_sent (c : VitChoice) {x : Bytes 46} {b : Bytes 18}
    (hx : slice x 12 34 = packBits 34 (txCoded punctStream b.toList)) : convdecStream c x = b := by
  rw [convdecStream, convdec, streamCoded, hx, bitsOf_packBits (txCoded_punctStream_length b), txCoded,
    viterbi_depuncture_puncture_enc punctStream_noAdjacentGaps (by decide) c fun _ => trellisAfter_flush _,
    packBits_bitsOf_append]

/-! ### The LICH field -/

theorem lichUnpack_of_ok {lich : Bytes 12} {v0 v1 v2 v3 : BitVec 12}
    (h0 : golay24Decode (lichCodeword lich 0) = .ok v0) (h1 : golay24Decode (lichCodeword lich 1) = .ok v1)
    (h2 : golay24Decode (lichCodeword lich 2) = .ok v2) (h3 : golay24Decode (lichCodeword lich 3) = .ok v3) :
    lichUnpack lich = lichSegment v0 v1 v2 v3 := by
  simp only [lichUnpack, h0, h1, h2, h3]

theorem lichCodeword_lichExtract_toBytes (bs : List Byte) {i : Nat} (hi : i < 4) :
    lichCodeword (lichExtract (toBytes 46 bs)) i =
      bs.getD (3 * i) 0 ++ bs.getD (3 * i + 1) 0 ++ bs.getD (3 * i + 2) 0 := by
  have hbyte : ∀ j < 12, byteAt (lichExtract (toBytes 46 bs)) j = bs.getD j 0 := fun j hj => by
    rw [lichExtract, byteAt_slice _ _ _ hj, Nat.zero_add, toBytes, byteAt_tabulate _ (by omega)]
  rw [lichCodeword, hbyte _ (by omega), hbyte _ (by omega), hbyte _ (by omega)]

/-- The three bytes of a codeword make the codeword (30_encoding.md R64). -/
theorem append_codewordBytes (w : BitVec 24) :
    w.extractLsb' 16 8 ++ w.extractLsb' 8 8 ++ w.extractLsb' 0 8 = w := by
  rw [BitVec.extractLsb'_append_extractLsb'_eq_extractLsb' (by rfl)]
  exact (BitVec.extractLsb'_append_extractLsb'_eq_extractLsb' rfl).trans BitVec.extractLsb'_eq_self

/-! ### The transmitted payload -/

/-- The transformed payload of a stream frame (43_viterbi.md R140, 30_encoding.md R61). -/
def streamFields (w0 w1 w2 w3 : BitVec 24) (b : Bytes 18) : Bytes 46 :=
  toBytes 46 (codewordBytes w0 ++ codewordBytes w1 ++ codewordBytes w2 ++ codewordBytes w3 ++
    (packBits 34 (txCoded punctStream b.toList)).toList)

theorem bitxform_txStream (w0 w1 w2 w3 : BitVec 24) (b : Bytes 18) :
    bitxform (txStream w0 w1 w2 w3 b) = streamFields w0 w1 w2 w3 b := bitxform_txTransform _

theorem slice_toBytes_append {m n : Nat} {pre : List Byte} (v : Bytes m) (hlen : pre.length + m ≤ n) :
    slice (toBytes n (pre ++ v.toList)) pre.length m = v := by
  refine bytes_ext fun i hi => ?_
  rw [byteAt_slice _ _ _ hi, toBytes, byteAt_tabulate _ (by omega),
    List.getD_append_right _ _ _ _ (Nat.le_add_right ..), Nat.add_sub_cancel_left, byteAt]

theorem convdecStream_streamFields (c : VitChoice) (w0 w1 w2 w3 : BitVec 24) (b : Bytes 18) :
    convdecStream c (streamFields w0 w1 w2 w3 b) = b :=
  convdecStream_of_sent c (slice_toBytes_append
    (pre := codewordBytes w0 ++ codewordBytes w1 ++ codewordBytes w2 ++ codewordBytes w3) _ (Nat.le_refl 46))

theorem lichUnpack_streamFields {w0 w1 w2 w3 : BitVec 24} {v0 v1 v2 v3 : BitVec 12} (b : Bytes 18)
    (h0 : golay24Decode w0 = .ok v0) (h1 : golay24Decode w1 = .ok v1) (h2 : golay24Decode w2 = .ok v2)
    (h3 : golay24Decode w3 = .ok v3) :
    lichUnpack (lichExtract (streamFields w0 w1 w2 w3 b)) = lichSegment v0 v1 v2 v3 := by
  apply lichUnpack_of_ok <;> rw [streamFields, lichCodeword_lichExtract_toBytes _ (by decide)]
  · exact (congrArg golay24Decode (append_codewordBytes w0)).trans h0
  · exact (congrArg golay24Decode (append_codewordBytes w1)).trans h1
  · exact (congrArg golay24Decode (append_codewordBytes w2)).trans h2
  · exact (congrArg golay24Decode (append_codewordBytes w3)).trans h3

/-! ### The obligation -/

/-- Settles O45: the codewords decode by `golay24Decode_correct`, the stream bytes by `convdecStream_of_sent`. -/
theorem streamFrameDeliversItsBytesAndSegment : Obligations.StreamFrameDeliversItsBytesAndSegment := by
  intro sync v0 v1 v2 v3 e0 e1 e2 e3 b s hstream he0 he1 he2 he3
  have hlich := lichUnpack_streamFields b (golay24Decode_correct v0 he0) (golay24Decode_correct v1 he1)
    (golay24Decode_correct v2 he2) (golay24Decode_correct v3 he3)
  refine ⟨_, exec_decodeFrame _ s, ?_⟩
  rw [decodeFrameWith_stream vitChoice s.dec (by rwa [frameSync_frameOf]), framePayload_frameOf,
    bitxform_txStream, streamPath, hlich, convdecStream_streamFields]
  exact ⟨rfl, rfl, rfl⟩

end Sys2Proof.Machine
end

section
/-! PROOFS. Maximum-likelihood decoding as a relation (spec/43_viterbi.md R134, R135): the survivor algorithm
answers a most likely sequence whatever the tie-break, and each most likely sequence under some tie-break.

The first half reads `ADM` as "the path ends in state 0" (`trellisAfter_eq_zero_iff`). The second half rests on
`MostLikely.beginning_le`: each beginning of a most likely path is a cheapest path to the state it leads to, so a
tie-break that turns towards that path (`tieTowards`) keeps it at every step. -/

namespace Sys2Proof.Machine

/-! ### VITERBI as an operation -/

theorem exec_viterbi_of_even {y : List Sym} (h : y.length % 2 = 0) (s : State) :
    exec (.viterbi y) s = .next (s.answer (.bits (viterbi vitChoice y)) .none) := if_pos h

/-! ### Paths that end in state 0 -/

theorem getLsbD_trellisNext_older (j : Fin 3) (s : Trellis) (b : Bool) :
    (trellisNext s b).getLsbD j = s.getLsbD (j + 1) := by
  revert j s b
  decide

/-- A trellis state is the last four inputs, the last one in bit 3 (43_viterbi.md R131). -/
theorem getLsbD_trellisAfter (u : Bits) {j : Nat} (hj : j < 4) :
    (trellisAfter u).getLsbD (3 - j) = u.reverse.getD j false := by
  induction u using List.reverseRecOn generalizing j with
  | nil => simp [trellisAfter]
  | append_singleton u b ih =>
    rw [trellisAfter_concat, List.reverse_append, List.reverse_singleton, List.singleton_append]
    cases j with
    | zero => rw [List.getD_cons_zero, getLsbD_trellisNext]
    | succ j =>
      have hidx : 3 - (j + 1) + 1 = 3 - j := by omega
      rw [List.getD_cons_succ, getLsbD_trellisNext_older ⟨3 - (j + 1), by omega⟩, hidx, ih (by omega)]

/-- The last four entries, or all of them where there are fewer, by their place from the end. -/
theorem forall_mem_last_four_iff {u : Bits} :
    (∀ b ∈ u.drop (u.length - 4), b = false) ↔ ∀ j < 4, u.reverse.getD j false = false := by
  have hmem : ∀ b, b ∈ u.drop (u.length - 4) ↔ b ∈ u.reverse.take 4 := by simp [List.take_reverse]
  simp only [hmem, List.mem_take_iff_getElem]
  constructor
  · intro h j hj
    by_cases hlen : j < u.reverse.length
    · rw [List.getD_eq_getElem _ _ hlen]
      exact h _ ⟨j, by omega, rfl⟩
    · exact List.getD_eq_default _ _ (by omega)
  · rintro h b ⟨j, hj, rfl⟩
    rw [← List.getD_eq_getElem _ false]
    exact h j (by omega)

/-- A path ends in state 0 when its last four inputs are 0, or all of them where there are fewer
(43_viterbi.md R134, R142, log 11). -/
theorem trellisAfter_eq_zero_iff {u : Bits} :
    trellisAfter u = 0 ↔ ∀ b ∈ u.drop (u.length - 4), b = false := by
  rw [forall_mem_last_four_iff]
  constructor
  · intro h j hj
    rw [← getLsbD_trellisAfter u hj, h]
    exact BitVec.getLsbD_zero
  · intro h
    refine BitVec.eq_of_getLsbD_eq fun i hi => ?_
    have hidx : 3 - (3 - i) = i := by omega
    rw [← hidx, getLsbD_trellisAfter u (by omega), h _ (by omega)]
    exact BitVec.getLsbD_zero.symm

/-- `ADM(N)`, by where its paths end. -/
theorem admissible_iff {e : VitEnd} {n : Nat} {u : Bits} :
    Admissible e n u ↔ u.length = n ∧ (e = .zero → trellisAfter u = 0) := by
  refine and_congr_right fun hlen => ?_
  rw [trellisAfter_eq_zero_iff, hlen]

/-! ### The answer is most likely -/

/-- Some path ends in state 0, whatever the number of steps: the one of zero inputs. -/
theorem admissible_replicate_false (e : VitEnd) (n : Nat) : Admissible e n (List.replicate n false) :=
  ⟨List.length_replicate, fun _ _ hb => List.eq_of_mem_replicate (List.mem_of_mem_drop hb)⟩

theorem two_mul_length_of_admissible {e : VitEnd} {y : List Sym} {u : Bits} (heven : y.length % 2 = 0)
    (hu : Admissible e (y.length / 2) u) : 2 * u.length = y.length := by
  obtain ⟨hlen, -⟩ := hu
  omega

/-- The survivor algorithm answers a most likely sequence, whatever its ties (43_viterbi.md R134, R142). -/
theorem mostLikely_viterbi (c : VitChoice) {y : List Sym} (heven : y.length % 2 = 0) :
    MostLikely c.vend y (viterbi c y) := by
  have hle : ∀ v, Admissible c.vend (y.length / 2) v →
      2 * (viterbi c y).length = y.length ∧ (c.vend = .zero → trellisAfter (viterbi c y) = 0) ∧
        pathCost (viterbi c y) y ≤ pathCost v y := fun v hv =>
    viterbi_le c (two_mul_length_of_admissible heven hv) (admissible_iff.mp hv).2
  obtain ⟨hlen, hend, -⟩ := hle _ (admissible_replicate_false c.vend (y.length / 2))
  exact ⟨admissible_iff.mpr ⟨by omega, hend⟩, fun v hv => (hle v hv).2.2⟩

theorem two_mul_length_viterbi (c : VitChoice) {y : List Sym} (heven : y.length % 2 = 0) :
    2 * (viterbi c y).length = y.length :=
  two_mul_length_of_admissible heven (mostLikely_viterbi c heven).1

/-! ### The beginning of a most likely path -/

/-- The cost of a path is that of its beginning and that of the rest from the state reached there
(43_viterbi.md R133). -/
theorem pathCost_append {u : Bits} {y : List Sym} (hlen : 2 * u.length = y.length) (w : Bits) (z : List Sym) :
    pathCost (u ++ w) (y ++ z) =
      pathCost u y + (List.zipWith symCost z (encFrom (trellisAfter u) w)).sum := by
  rw [pathCost, enc, encFrom_append, List.zipWith_append (by simp [hlen]), List.sum_append]
  rfl

theorem trellisAfter_append (u w : Bits) : trellisAfter (u ++ w) = w.foldl trellisNext (trellisAfter u) :=
  List.foldl_append

/-- No path reaches a state on a most likely path cheaper: it could be continued by the rest of that path. -/
theorem MostLikely.beginning_le {e : VitEnd} {y z : List Sym} {u v w : Bits}
    (hu : MostLikely e (y ++ z) (u ++ w)) (hlen : 2 * u.length = y.length) (hvlen : 2 * v.length = y.length)
    (hv : trellisAfter v = trellisAfter u) : pathCost u y ≤ pathCost v y := by
  obtain ⟨hadm, hleast⟩ := hu
  have hcont : Admissible e ((y ++ z).length / 2) (v ++ w) := by
    rw [admissible_iff, List.length_append, trellisAfter_append] at hadm ⊢
    rw [hv]
    obtain ⟨hulen, hend⟩ := hadm
    exact ⟨by omega, hend⟩
  have hle := hleast _ hcont
  rw [pathCost_append hlen, pathCost_append hvlen, hv] at hle
  omega

/-! ### A tie-break that turns towards a path -/

/-- The tie-break that keeps, at each step, the candidate from the state `u` comes from, and at the end that of
the state `u` ends in. -/
def tieTowards (u : Bits) (k t : Nat) : Bool :=
  if k < u.length then (trellisAfter (u.take k)).getLsbD 0 else decide (t = (trellisAfter u).toNat)

theorem tieTowards_step (u w : Bits) (b : Bool) (t : Nat) :
    tieTowards (u ++ b :: w) u.length t = (trellisAfter u).getLsbD 0 := by
  rw [tieTowards, if_pos (by simp), List.take_left]

theorem tieTowards_end (u : Bits) (t : Nat) :
    tieTowards u u.length t = decide (t = (trellisAfter u).toNat) := if_neg (Nat.lt_irrefl _)

/-- The earlier candidate is kept when it is no dearer and the tie falls to it. -/
theorem keepCheaper_left {a : Survivor} {q : Option Survivor} (h : ∀ b, q = some b → a.cost ≤ b.cost) :
    keepCheaper false (some a) q = some a := by
  cases q with
  | none => rfl
  | some b =>
    have := h b rfl
    simp only [keepCheaper, Bool.false_eq_true, if_false]
    split
    · rfl
    · rw [if_neg (by omega)]

/-- The later candidate is kept when it is no dearer and the tie falls to it. -/
theorem keepCheaper_right {a : Survivor} {p : Option Survivor} (h : ∀ b, p = some b → a.cost ≤ b.cost) :
    keepCheaper true p (some a) = some a := by
  cases p with
  | none => rfl
  | some b =>
    have := h b rfl
    simp only [keepCheaper, if_true]
    rw [if_neg (by omega), ite_self]

/-- `u` itself is the survivor of the state it leads to. -/
def Survives (u : Bits) (y : List Sym) (front : Front) : Prop :=
  front[(trellisAfter u).toNat] = some ⟨pathCost u y, u.reverse⟩

theorem survives_start : Survives [] [] startFront := rfl

/-- The survivor of `u` extended by its next input. -/
theorem Survives.extend {u : Bits} {y : List Sym} {front : Front} (h : Survives u y front)
    (hlen : 2 * u.length = y.length) (b : Bool) (y1 y2 : Sym) :
    extendSurvivor front (trellisAfter u) b y1 y2 =
      some ⟨pathCost (u ++ [b]) (y ++ [y1, y2]), (u ++ [b]).reverse⟩ := by
  rw [extendSurvivor, h, Option.map_some, pathCost_concat hlen, List.reverse_concat]

/-- A trellis step keeps `u` when no path to its next state is cheaper and ties fall to it. -/
theorem Survives.step {u : Bits} {y : List Sym} {front : Front} (h : Survives u y front)
    (hfront : FrontFor y front) (hlen : 2 * u.length = y.length) {b : Bool} {y1 y2 : Sym}
    (hleast : ∀ v, 2 * v.length = (y ++ [y1, y2]).length → trellisAfter v = trellisAfter (u ++ [b]) →
      pathCost (u ++ [b]) (y ++ [y1, y2]) ≤ pathCost v (y ++ [y1, y2]))
    {tie : Nat → Bool} (htie : ∀ t, tie t = (trellisAfter u).getLsbD 0) :
    Survives (u ++ [b]) (y ++ [y1, y2]) (frontStep tie front y1 y2) := by
  have hown := h.extend hlen b y1 y2
  have hother : ∀ old r, extendSurvivor front (predecessor (trellisAfter (u ++ [b])) old)
      ((trellisAfter (u ++ [b])).getLsbD 3) y1 y2 = some r →
        pathCost (u ++ [b]) (y ++ [y1, y2]) ≤ r.cost := by
    intro old r hr
    obtain ⟨hrlen, hrend, hcost⟩ := extendSurvivor_sound hfront hr
    rw [trellisNext_predecessor] at hrend
    rw [hcost]
    exact hleast _ (by rwa [List.length_reverse]) hrend
  have hfrom : predecessor (trellisAfter (u ++ [b])) ((trellisAfter u).getLsbD 0) = trellisAfter u := by
    rw [trellisAfter_concat, predecessor_trellisNext]
  have hinput : (trellisAfter (u ++ [b])).getLsbD 3 = b := by
    rw [trellisAfter_concat, getLsbD_trellisNext]
  rw [Survives, getElem_frontStep, htie]
  rw [hinput] at hother ⊢
  cases hold : (trellisAfter u).getLsbD 0 with
  | false =>
    rw [hold] at hfrom
    rw [hfrom, hown]
    exact keepCheaper_left (hother true)
  | true =>
    rw [hold] at hfrom
    rw [hfrom, hown]
    exact keepCheaper_right (hother false)

/-- A most likely path survives to the end under the tie-break that turns towards it. -/
theorem Survives.frontAfter {e : VitEnd} {u w : Bits} {y z : List Sym} {front : Front}
    (h : Survives u y front) (hfront : FrontFor y front) (hlen : 2 * u.length = y.length)
    (hrest : 2 * w.length = z.length) (hlikely : MostLikely e (y ++ z) (u ++ w)) :
    Survives (u ++ w) (y ++ z) (frontAfter (tieTowards (u ++ w)) u.length front z) := by
  induction w generalizing u y z front with
  | nil =>
    obtain rfl := List.length_eq_zero_iff.mp hrest.symm
    rw [List.append_nil, List.append_nil]
    exact h
  | cons b w ih =>
    match z with
    | [] | [_] => simp only [List.length_cons, List.length_nil] at hrest; omega
    | y1 :: y2 :: z =>
      have hsplit : u ++ b :: w = u ++ [b] ++ w := List.append_cons ..
      have hysplit : y ++ y1 :: y2 :: z = y ++ [y1, y2] ++ z := by simp
      have hlen' : 2 * (u ++ [b]).length = (y ++ [y1, y2]).length := by
        simp only [List.length_append, List.length_cons, List.length_nil]; omega
      rw [hsplit, hysplit] at hlikely
      have hstep := h.step hfront hlen (b := b) (y1 := y1) (y2 := y2)
        (fun v hvlen hv => hlikely.beginning_le hlen' hvlen hv) (tieTowards_step u w b)
      have hnext := ih hstep (hfront.step _ y1 y2) hlen'
        (by simp only [List.length_cons] at hrest; omega) hlikely
      rw [List.length_append, List.length_singleton, ← hsplit, ← hysplit] at hnext
      exact hnext

/-! ### The end of the path -/

theorem foldl_keepCheaper_eq {tie : Nat → Bool} {f : Nat → Option Survivor} {s : Nat} {a : Survivor}
    (hs : f s = some a) (hleast : ∀ t b, f t = some b → a.cost ≤ b.cost) (htie : ∀ t, tie t = decide (t = s))
    {ss : List Nat} {best : Option Survivor}
    (h : best = some a ∨ s ∈ ss ∧ ∀ b, best = some b → a.cost ≤ b.cost) :
    ss.foldl (fun best t => keepCheaper (tie t) best (f t)) best = some a := by
  induction ss generalizing best with
  | nil => exact h.resolve_right (by simp)
  | cons t ss ih =>
    refine ih ?_
    have hbest : ∀ b, best = some b → a.cost ≤ b.cost := by
      rcases h with rfl | ⟨-, hbest⟩
      · rintro b ⟨⟩
        exact Nat.le_refl _
      · exact hbest
    by_cases ht : t = s
    · left
      beta_reduce
      rw [htie, ht, decide_eq_true rfl, hs]
      exact keepCheaper_right hbest
    · beta_reduce
      rw [htie, decide_eq_false ht]
      rcases h with rfl | ⟨hmem, -⟩
      · exact .inl (keepCheaper_left (hleast t))
      · refine .inr ⟨(List.mem_cons.mp hmem).resolve_left (Ne.symm ht), fun b hb => ?_⟩
        exact (keepCheaper_cases hb).1.elim (hbest b) (hleast t b)

theorem getD_toList_sound {y : List Sym} {front : Front} (hfront : FrontFor y front) {t : Nat} {r : Survivor}
    (h : front.toList.getD t none = some r) : ∃ s, SurvivorOf y s r := by
  have ht : t < 16 := by
    by_contra hge
    rw [List.getD_eq_default _ _ (by rw [Vector.length_toList]; omega)] at h
    cases h
  exact ⟨BitVec.ofFin ⟨t, ht⟩, hfront.sound _ r (getD_toList_front front (BitVec.ofFin ⟨t, ht⟩) ▸ h)⟩

/-- The trace-back starts from a most likely path that survived. -/
theorem Survives.finalSurvivor {e : VitEnd} {u : Bits} {y : List Sym} {front : Front} (h : Survives u y front)
    (hfront : FrontFor y front) (hlikely : MostLikely e y u) {tie : Nat → Bool}
    (htie : ∀ t, tie t = decide (t = (trellisAfter u).toNat)) :
    finalSurvivor e tie front = some ⟨pathCost u y, u.reverse⟩ := by
  obtain ⟨hadm, hleast⟩ := hlikely
  cases e with
  | zero =>
    have hzero := (admissible_iff.mp hadm).2 rfl
    simp only [Survives, hzero] at h
    exact h
  | free =>
    refine foldl_keepCheaper_eq ((getD_toList_front front _).trans h) (fun t r hr => ?_) htie
      (.inr ⟨List.mem_range.mpr (trellisAfter u).isLt, nofun⟩)
    obtain ⟨s, hrlen, -, hcost⟩ := getD_toList_sound hfront hr
    rw [hcost]
    exact hleast _ ⟨by rw [List.length_reverse]; omega, nofun⟩

/-! ### The obligations -/

/-- Settles O23: `mostLikely_viterbi` at `vitChoice` and at any choice. -/
theorem viterbiAnswersAMostLikelySequence : Obligations.ViterbiAnswersAMostLikelySequence :=
  ⟨fun _ s heven => ⟨_, exec_viterbi_of_even heven s, two_mul_length_viterbi vitChoice heven,
    fun _ => mostLikely_viterbi vitChoice heven⟩, fun c _ heven _ => mostLikely_viterbi c heven⟩

/-- Settles O24: with fewer than four steps an admissible path has no other inputs. -/
theorem shortSequencesEndingInStateZeroDecodeToZeros :
    Obligations.ShortSequencesEndingInStateZeroDecodeToZeros := by
  intro tie y heven hshort
  obtain ⟨⟨hlen, hzeros⟩, -⟩ := mostLikely_viterbi ⟨.zero, tie⟩ heven
  have hfew : y.length / 2 - 4 = 0 := by omega
  rw [hfew, List.drop_zero] at hzeros
  exact List.eq_replicate_iff.mpr ⟨hlen, hzeros rfl⟩

/-- Settles O25: under `tieTowards u` the sequence `u` survives every step and the trace-back starts from it. -/
theorem viterbiChoiceAdmitsEveryMostLikelySequence : Obligations.ViterbiChoiceAdmitsEveryMostLikelySequence := by
  intro e y u heven hlikely
  have hlen := two_mul_length_of_admissible heven hlikely.1
  have hfront : FrontFor y (frontAfter (tieTowards u) 0 startFront y) :=
    frontFor_start.frontAfter (tieTowards u) 0 heven
  have hsurvives : Survives u y (frontAfter (tieTowards u) 0 startFront y) :=
    survives_start.frontAfter (u := []) (y := []) frontFor_start rfl hlen hlikely
  have hfinal := hsurvives.finalSurvivor hfront hlikely (tieTowards_end u)
  have hsteps : y.length / 2 = u.length := by omega
  refine ⟨fun _ => tieTowards u, ?_⟩
  simp only [viterbi, hsteps, hfinal, List.reverse_reverse]

end Sys2Proof.Machine
end

section
/-! PROOFS. A link-setup frame from transmitter to Decoder State (spec/43_viterbi.md R140, spec/45_frame_decoder.md
R173): either default pattern leaves a bit of every step, so a stream without errors decodes to what was sent. -/

namespace Sys2Proof.Machine

/-! ### The link-setup pattern -/

theorem punctLsf_noAdjacentGaps : NoAdjacentGaps punctLsf :=
  noAdjacentGaps_of_turn (by decide) (by decide)

/-- 244 steps less 120 omitted bits fill the 46 bytes of the payload (43_viterbi.md R137). -/
theorem txCoded_punctLsf_length (l : Bytes 30) : (txCoded punctLsf l.toList).length = 8 * 46 := by
  have hsteps : (enc (bitsOf l.toList ++ List.replicate 4 false)).length = 488 := by simp
  rw [txCoded, puncture, punctureFrom_length, hsteps]
  decide +kernel

theorem lsfCoded_eq_toList (x : Bytes 46) : lsfCoded x = x.toList := by
  have hslice : slice x 0 46 = x := bytes_ext fun i hi => by rw [byteAt_slice _ _ _ hi, Nat.zero_add]
  rw [lsfCoded, hslice]

/-- The LSF comes back without errors, for every choice of the open parameters (43_viterbi.md R140). -/
theorem convdecLsf_of_sent (c : VitChoice) (l : Bytes 30) :
    convdecLsf c (packBits 46 (txCoded punctLsf l.toList)) = l := by
  rw [convdecLsf, convdec, lsfCoded_eq_toList, bitsOf_packBits (txCoded_punctLsf_length l), txCoded,
    viterbi_depuncture_puncture_enc punctLsf_noAdjacentGaps (by decide) c fun _ => trellisAfter_flush _,
    packBits_bitsOf_append]

theorem bitxform_txLinkSetup (l : Bytes 30) :
    bitxform (txLinkSetup l) = packBits 46 (txCoded punctLsf l.toList) := bitxform_txTransform _

/-! ### The obligations -/

/-- Settles O26: four flush bits end the path in state 0, which `viterbi_depuncture_puncture_enc` asks for where
`VIT_END` is zero. -/
theorem errorFreeStreamDecodesToWhatWasSent : Obligations.ErrorFreeStreamDecodesToWhatWasSent := by
  intro c u _ hflush
  have hend : c.vend = .zero → trellisAfter u = 0 := fun _ => trellisAfter_eq_zero_iff.mpr hflush
  exact ⟨viterbi_depuncture_puncture_enc punctLsf_noAdjacentGaps (by decide) c hend,
    viterbi_depuncture_puncture_enc punctStream_noAdjacentGaps (by decide) c hend⟩

/-- Settles O44: the LINK_SETUP path stores what `convdecLsf_of_sent` says CONVDEC_LSF answers. -/
theorem cleanLinkSetupFrameDeliversItsLsf : Obligations.CleanLinkSetupFrameDeliversItsLsf := by
  intro sync l s hlink
  refine ⟨_, exec_decodeFrame _ s, ?_⟩
  rw [decodeFrameWith_linkSetup vitChoice s.dec (by rwa [frameSync_frameOf]), framePayload_frameOf,
    bitxform_txLinkSetup, linkSetupPath, convdecLsf_of_sent]
  exact ⟨rfl, rfl⟩

end Sys2Proof.Machine
end

section
/-! PROOFS. DEPUNCTURE and CONVDEC as operations (spec/43_viterbi.md R132, R136 to R138): where the loop of R132
puts erasures and received bits, that it ends in time, and what CONVDEC and its two instances answer or refuse.

`depunctureLoop_places` counts the passes: a pattern with a 1 keeps a position at least every `length` passes
(`exists_punctKeeps`). The all-zero payload is what a transmitter makes of zero bytes (`packBits_txCoded_zeroBytes`),
so R140 says what it decodes to. -/

namespace Sys2Proof.Machine

/-! ### The operations, case by case -/

theorem bitsOf_eq_nil_iff {bs : List Byte} : bitsOf bs = [] ↔ bs = [] := by
  rw [← List.length_eq_zero_iff, bitsOf_length, ← List.length_eq_zero_iff]
  omega

theorem depunctureEnds_iff {r pattern : Bits} : depunctureEnds r pattern = true ↔ r = [] ∨ true ∈ pattern := by
  simp [depunctureEnds]

theorem convdecFits_iff {b : List Byte} {pattern : Bits} {n : Nat} :
    convdecFits b pattern n = true ↔ 8 * n ≤ (depuncture (bitsOf b) pattern).length / 2 := decide_eq_true_iff

theorem exec_depuncture_of_ends {r pattern : Bits} (h : depunctureEnds r pattern = true) (s : State) :
    exec (.depuncture r pattern) s = .next (s.answer (.symbols (depuncture r pattern)) .none) := if_pos h

theorem exec_depuncture_of_not_ends {r pattern : Bits} (h : ¬ depunctureEnds r pattern = true) (s : State) :
    exec (.depuncture r pattern) s = .refused .patternKeepsNothing := if_neg h

theorem exec_viterbi_of_odd {y : List Sym} (h : ¬ y.length % 2 = 0) (s : State) :
    exec (.viterbi y) s = .refused .oddSymbolCount := if_neg h

theorem exec_convdec_of_fits {b : List Byte} {pattern : Bits} {n : Nat}
    (hends : depunctureEnds (bitsOf b) pattern = true) (hfits : convdecFits b pattern n = true) (s : State) :
    exec (.convdec b pattern n) s = .next (s.answer (.bytes (convdec vitChoice b pattern n).toList) .none) :=
  (if_pos hends).trans (if_pos hfits)

theorem exec_convdec_of_not_fits {b : List Byte} {pattern : Bits} {n : Nat}
    (hends : depunctureEnds (bitsOf b) pattern = true) (hfits : ¬ convdecFits b pattern n = true) (s : State) :
    exec (.convdec b pattern n) s = .refused .outputTooLong :=
  (if_pos hends).trans (if_neg hfits)

theorem exec_convdec_of_not_ends {b : List Byte} {pattern : Bits} (n : Nat)
    (hends : ¬ depunctureEnds (bitsOf b) pattern = true) (s : State) :
    exec (.convdec b pattern n) s = .refused .patternKeepsNothing := if_neg hends

theorem exec_convdecLsf (x : Bytes 46) (s : State) :
    exec (.convdecLsf x) s = .next (s.answer (.bytes (convdecLsf vitChoice x).toList) .none) := rfl

/-! ### The walk over the pattern -/

theorem punctKeeps_eq_true_iff {pattern : Bits} {i : Nat} :
    punctKeeps pattern i = true ↔ pattern[i % pattern.length]? = some true := by
  rw [punctKeeps, List.getD_eq_getElem?_getD]
  cases pattern[i % pattern.length]? <;> simp

/-- A pattern with a 1 keeps one of any `length` positions in a row (00_scope.md R12). -/
theorem exists_punctKeeps {pattern : Bits} (hone : true ∈ pattern) (i : Nat) :
    ∃ d < pattern.length, punctKeeps pattern (i + d) = true := by
  obtain ⟨k, hk, hkeep⟩ := List.getElem_of_mem hone
  have hmod : i % pattern.length < pattern.length := Nat.mod_lt _ (Nat.zero_lt_of_lt hk)
  have hfound : ∀ d, (i % pattern.length + d) % pattern.length = k → punctKeeps pattern (i + d) = true := by
    intro d hd
    rw [punctKeeps_eq_true_iff, ← Nat.mod_add_mod, hd, List.getElem?_eq_getElem hk, hkeep]
  by_cases hle : i % pattern.length ≤ k
  · refine ⟨k - i % pattern.length, by omega, hfound _ ?_⟩
    rw [Nat.add_sub_cancel' hle, Nat.mod_eq_of_lt hk]
  · refine ⟨k + pattern.length - i % pattern.length, by omega, hfound _ ?_⟩
    rw [Nat.add_sub_cancel' (by omega), Nat.add_mod_right, Nat.mod_eq_of_lt hk]

/-- The bit a symbol carries, if it was received. -/
def receivedBit : Sym → Option Bool
  | .bit b => some b
  | .erased => none

/-- The symbols `y` carry the received bits `r` in order and end with the last of them (43_viterbi.md R132). -/
def Places (y : List Sym) (r : Bits) : Prop := y.filterMap receivedBit = r ∧ y.getLast? ≠ some .erased

theorem places_nil : Places [] [] := ⟨rfl, nofun⟩

theorem places_singleton (b : Bool) : Places [.bit b] [b] := ⟨rfl, by simp⟩

/-- A symbol in front of received bits leaves the last symbol the last. -/
theorem Places.cons {y : List Sym} {b : Bool} {r : Bits} (h : Places y (b :: r)) (x : Sym) :
    Places (x :: y) ((receivedBit x).toList ++ b :: r) := by
  obtain ⟨hbits, hlast⟩ := h
  have hne : y ≠ [] := by rintro rfl; cases hbits
  refine ⟨?_, by rwa [List.getLast?_cons_of_ne_nil hne]⟩
  cases x with
  | bit c => exact congrArg (c :: ·) hbits
  | erased => exact hbits

/-- An erasure stands exactly at each position the pattern omits (43_viterbi.md R132). -/
theorem depunctureLoop_erased_iff {pattern : Bits} {fuel i : Nat} {r : Bits} {k : Nat}
    (hk : k < (depunctureLoop pattern fuel i r).length) :
    (depunctureLoop pattern fuel i r)[k]? = some .erased ↔ ¬ punctKeeps pattern (i + k) = true := by
  induction fuel generalizing i r k with
  | zero => exact absurd hk (Nat.not_lt_zero k)
  | succ fuel ih =>
    match r with
    | [] => exact absurd hk (Nat.not_lt_zero k)
    | b :: r =>
      by_cases hkeep : punctKeeps pattern i = true <;>
        simp only [depunctureLoop, hkeep, if_true, Bool.false_eq_true, if_false, List.length_cons] at hk ⊢ <;>
        cases k with
        | zero => simp [hkeep]
        | succ k =>
          rw [List.getElem?_cons_succ, ih (Nat.lt_of_succ_lt_succ hk), Nat.add_assoc, Nat.add_comm 1 k]

/-- Where a position is kept within `d` passes and then every `length` passes, the fuel lasts. -/
theorem depunctureLoop_places {pattern : Bits} (hone : true ∈ pattern) {fuel i d : Nat} {b : Bool} {r : Bits}
    (hd : punctKeeps pattern (i + d) = true) (hfuel : r.length * pattern.length + d < fuel) :
    Places (depunctureLoop pattern fuel i (b :: r)) (b :: r) := by
  induction fuel generalizing i d b r with
  | zero => omega
  | succ fuel ih =>
    rw [depunctureLoop]
    by_cases hkeep : punctKeeps pattern i = true
    · rw [if_pos hkeep]
      match r with
      | [] =>
        have hdone : depunctureLoop pattern fuel (i + 1) [] = [] := by cases fuel <;> rfl
        rw [hdone]
        exact places_singleton b
      | b' :: r =>
        obtain ⟨d', hlt, hd'⟩ := exists_punctKeeps hone (i + 1)
        rw [List.length_cons, Nat.succ_mul] at hfuel
        exact (ih hd' (by omega)).cons (.bit b)
    · rw [if_neg hkeep]
      match d with
      | 0 => exact absurd hd hkeep
      | d + 1 =>
        have hd' : punctKeeps pattern (i + 1 + d) = true := by rwa [Nat.add_assoc, Nat.add_comm 1 d]
        exact (ih hd' (by omega)).cons .erased

/-- The fuel DEPUNCTURE starts with suffices: every received bit is placed. -/
theorem depunctureLoop_start_places {r pattern : Bits} (h : r = [] ∨ true ∈ pattern) :
    Places (depunctureLoop pattern (r.length * pattern.length) 0 r) r := by
  match r with
  | [] =>
    rw [List.length_nil, Nat.zero_mul]
    exact places_nil
  | b :: r =>
    have hone : true ∈ pattern := h.resolve_left nofun
    obtain ⟨d, hlt, hd⟩ := exists_punctKeeps hone 0
    exact depunctureLoop_places hone hd (by rw [List.length_cons, Nat.succ_mul]; omega)

/-- The number of symbols depends on the number of received bits alone. -/
theorem depunctureLoop_length_congr (pattern : Bits) (fuel i : Nat) {r r' : Bits} (hlen : r.length = r'.length) :
    (depunctureLoop pattern fuel i r).length = (depunctureLoop pattern fuel i r').length := by
  induction fuel generalizing i r r' with
  | zero => rfl
  | succ fuel ih =>
    match r, r' with
    | [], [] => rfl
    | b :: r, b' :: r' =>
      simp only [depunctureLoop]
      split
      · rw [List.length_cons, List.length_cons, ih (i + 1) (Nat.succ.inj hlen)]
      · rw [List.length_cons, List.length_cons, ih (i + 1) hlen]

theorem padEven_length_congr {y y' : List Sym} (hlen : y.length = y'.length) :
    (padEven y).length = (padEven y').length := by
  simp only [padEven, hlen]
  split <;> simp [hlen]

theorem depuncture_length_congr (pattern : Bits) {r r' : Bits} (hlen : r.length = r'.length) :
    (depuncture r pattern).length = (depuncture r' pattern).length := by
  rw [depuncture, depuncture, hlen]
  exact padEven_length_congr (depunctureLoop_length_congr pattern _ 0 hlen)

theorem padEven_cases (y : List Sym) :
    padEven y = y ∧ y.length % 2 = 0 ∨ padEven y = y ++ [.erased] ∧ y.length % 2 = 1 := by
  unfold padEven
  split
  · next hodd => exact .inr ⟨rfl, hodd⟩
  · next heven => exact .inl ⟨rfl, by omega⟩

theorem depuncture_length_even (r pattern : Bits) : (depuncture r pattern).length % 2 = 0 := padEven_length _

/-! ### What the two instances read -/

theorem streamCoded_eq_drop (x : Bytes 46) : streamCoded x = x.toList.drop 12 := by
  refine List.ext_getElem (by simp [streamCoded]) fun i hi hi' => ?_
  have hlt : i < 34 := by simpa [streamCoded] using hi
  rw [← List.getD_eq_getElem _ 0 hi, List.getElem_drop, ← List.getD_eq_getElem _ 0]
  exact byteAt_slice x 12 34 hlt

/-- The symbols of as many bits as a transmitter sends for the input `u` are two for each of its steps. -/
theorem depuncture_length_of_sent {pattern : Bits} (hgaps : NoAdjacentGaps pattern) (hpattern : 2 ≤ pattern.length)
    {r u : Bits} (hr : r.length = (puncture pattern (enc u)).length) :
    (depuncture r pattern).length = 2 * u.length := by
  rw [depuncture_length_congr pattern hr, depuncture_puncture_enc hgaps hpattern, receivedFrom_length, enc_length]

/-- 368 bits make 488 symbols (43_viterbi.md R132, R137). -/
theorem depuncture_punctLsf_length {r : Bits} (hr : r.length = 368) : (depuncture r punctLsf).length = 488 := by
  have hsent := txCoded_punctLsf_length (zeroBytes 30)
  rw [depuncture_length_of_sent punctLsf_noAdjacentGaps (by decide) (hr.trans hsent.symm)]
  simp

/-- 272 bits make 296 symbols (43_viterbi.md R132, R138). -/
theorem depuncture_punctStream_length {r : Bits} (hr : r.length = 272) :
    (depuncture r punctStream).length = 296 := by
  have hsent := txCoded_punctStream_length (zeroBytes 18)
  rw [depuncture_length_of_sent punctStream_noAdjacentGaps (by decide) (hr.trans hsent.symm)]
  simp

/-- CONVDEC_LSF is CONVDEC of the whole payload (43_viterbi.md R137). -/
theorem exec_convdecLsf_eq_exec_convdec (x : Bytes 46) (s : State) :
    exec (.convdecLsf x) s = exec (.convdec x.toList punctLsf 30) s := by
  have hfits : convdecFits x.toList punctLsf 30 = true := by
    rw [convdecFits_iff, depuncture_punctLsf_length (by simp)]
    decide
  rw [exec_convdec_of_fits (depunctureEnds_iff.mpr (.inr (by decide))) hfits, exec_convdecLsf, convdecLsf,
    lsfCoded_eq_toList]

/-- CONVDEC_STREAM is CONVDEC of the payload behind the LICH field (43_viterbi.md R138). -/
theorem exec_convdecStream_eq_exec_convdec (x : Bytes 46) (s : State) :
    exec (.convdecStream x) s = exec (.convdec (x.toList.drop 12) punctStream 18) s := by
  have hfits : convdecFits (x.toList.drop 12) punctStream 18 = true := by
    rw [convdecFits_iff, depuncture_punctStream_length (by simp)]
    decide
  rw [exec_convdec_of_fits (depunctureEnds_iff.mpr (.inr (by decide))) hfits, exec_convdecStream, convdecStream,
    streamCoded_eq_drop]

/-! ### The all-zero payload -/

theorem mem_of_mem_punctureFrom {pattern : Bits} {i : Nat} {cs : Bits} {c : Bool}
    (h : c ∈ punctureFrom pattern i cs) : c ∈ cs := by
  induction cs generalizing i with
  | nil => exact h
  | cons c' cs ih =>
    rw [punctureFrom] at h
    split at h
    · exact (List.mem_cons.mp h).elim (fun heq => heq ▸ List.mem_cons_self) fun hmem => .tail _ (ih hmem)
    · exact .tail _ (ih h)

/-- The path of zero inputs emits zeros (43_viterbi.md R130). -/
theorem encFrom_replicate_false (n : Nat) :
    encFrom 0 (List.replicate n false) = List.replicate (2 * n) false := by
  induction n with
  | zero => rfl
  | succ n ih =>
    have hstay : trellisNext 0 false = 0 := by decide
    have hfirst : outG1 0 false = false := by decide
    have hsecond : outG2 0 false = false := by decide
    rw [List.replicate_succ, encFrom, hstay, hfirst, hsecond, ih, Nat.mul_succ]
    rfl

theorem bitsOf_zeroBytes (n : Nat) : bitsOf (zeroBytes n).toList = List.replicate (8 * n) false := by
  refine List.ext_getElem (by simp) fun p hp _ => ?_
  have hbyte : (zeroBytes n).toList.getD (p / 8) 0 = 0 := byteAt_zeroBytes n (p / 8)
  rw [List.getElem_replicate, ← List.getD_eq_getElem _ false hp, bitsOf_getD, hbyte]
  exact BitVec.getLsbD_zero

/-- A transmitter sends zeros for zero bytes (43_viterbi.md R130). -/
theorem packBits_txCoded_zeroBytes (pattern : Bits) (m n : Nat) :
    packBits m (txCoded pattern (zeroBytes n).toList) = zeroBytes m := by
  refine bytes_ext_bits fun p hp => ?_
  have hzero : ∀ c ∈ txCoded pattern (zeroBytes n).toList, c = false := fun c hc => by
    have hcoded := mem_of_mem_punctureFrom hc
    rw [bitsOf_zeroBytes, List.replicate_append_replicate, enc, encFrom_replicate_false] at hcoded
    exact List.eq_of_mem_replicate hcoded
  have hpacked : (txCoded pattern (zeroBytes n).toList).getD p false = false := by
    by_cases hlt : p < (txCoded pattern (zeroBytes n).toList).length
    · rw [List.getD_eq_getElem _ _ hlt]
      exact hzero _ (List.getElem_mem hlt)
    · exact List.getD_eq_default _ _ (Nat.le_of_not_lt hlt)
  rw [getbit_packBits _ _ hp, hpacked, getbit, byteAt_zeroBytes]
  exact BitVec.getLsbD_zero.symm

theorem convdecLsf_zeroBytes (c : VitChoice) : convdecLsf c (zeroBytes 46) = zeroBytes 30 := by
  rw [← packBits_txCoded_zeroBytes punctLsf 46 30]
  exact convdecLsf_of_sent c (zeroBytes 30)

theorem convdecStream_of_zero (c : VitChoice) {x : Bytes 46} (hx : ∀ i < 46, 12 ≤ i → byteAt x i = 0) :
    convdecStream c x = zeroBytes 18 := by
  refine convdecStream_of_sent c ?_
  rw [packBits_txCoded_zeroBytes]
  refine bytes_ext fun i hi => ?_
  rw [byteAt_slice _ _ _ hi, hx _ (by omega) (by omega), byteAt_zeroBytes]

/-! ### The obligations -/

/-- Settles O21: the loop of R132 gives the symbols before the padding. -/
theorem depuncturePlacesReceivedBitsAndErasures : Obligations.DepuncturePlacesReceivedBitsAndErasures := by
  intro r pattern s h
  obtain ⟨hbits, hlast⟩ := depunctureLoop_start_places h
  refine ⟨depunctureLoop pattern (r.length * pattern.length) 0 r, depuncture r pattern,
    exec_depuncture_of_ends (depunctureEnds_iff.mpr h) s, padEven_cases _, fun i hi => ?_, hbits, hlast⟩
  rw [depunctureLoop_erased_iff hi, Nat.zero_add, punctKeeps_eq_true_iff]

/-- Settles O22: each operand fails the check that guards the operation. -/
theorem operandsOutsideTheirRuleAreRefused : Obligations.OperandsOutsideTheirRuleAreRefused := by
  refine ⟨fun r pattern s hr hpattern => ?_, fun y s hodd => ?_, fun b pattern n s hb hpattern => ?_,
    fun b pattern n s h hshort => ?_⟩
  · exact exec_depuncture_of_not_ends (mt depunctureEnds_iff.mp (not_or.mpr ⟨hr, hpattern⟩)) s
  · exact exec_viterbi_of_odd (by omega) s
  · exact exec_convdec_of_not_ends n
      (mt depunctureEnds_iff.mp (not_or.mpr ⟨mt bitsOf_eq_nil_iff.mp hb, hpattern⟩)) s
  · exact exec_convdec_of_not_fits (depunctureEnds_iff.mpr (h.imp_left bitsOf_eq_nil_iff.mpr))
      (mt convdecFits_iff.mp (Nat.not_le.mpr hshort)) s

/-- Settles O27: VITERBI answers a bit for each of the `8n` positions that CONVDEC packs. -/
theorem convdecPacksTheFirstDecodedBits : Obligations.ConvdecPacksTheFirstDecodedBits := by
  intro b pattern n s h hfits
  have heven := depuncture_length_even (bitsOf b) pattern
  have hlen := two_mul_length_viterbi vitChoice heven
  refine ⟨_, _, exec_convdec_of_fits (depunctureEnds_iff.mpr (h.imp_left bitsOf_eq_nil_iff.mpr))
    (convdecFits_iff.mpr hfits) s, exec_viterbi_of_even heven s, by omega, fun k hk => ?_⟩
  have hin : k < (viterbi vitChoice (depuncture (bitsOf b) pattern)).length := by omega
  rw [convdec, getbit_packBits _ _ hk, List.getD_eq_getElem _ _ hin, List.getElem?_eq_getElem hin]

/-- Settles O28: both are within CONVDEC's requirement, and zeros are what is sent for zero bytes. -/
theorem convdecInstancesTakeTheirPartOfThePayload : Obligations.ConvdecInstancesTakeTheirPartOfThePayload := by
  refine ⟨fun x s => ⟨exec_convdecLsf_eq_exec_convdec x s, exec_convdecStream_eq_exec_convdec x s,
    ⟨_, exec_convdecLsf x s⟩, ⟨_, exec_convdecStream x s⟩, ?_, ?_⟩,
    fun c => ⟨convdecLsf_zeroBytes c, fun x => convdecStream_of_zero c⟩⟩
  · exact depuncture_punctLsf_length (by simp)
  · exact depuncture_punctStream_length (by simp)

end Sys2Proof.Machine
end

section
/-! PROOFS. The LICH field of a transformed payload (spec/44_lich.md R150 to R156): its extraction, the segment
that four decoded values make, and the outcome of LICH_UNPACK by its first uncorrectable sub-block. -/

namespace Sys2Proof.Machine

/-! ### Extraction -/

/-- The sub-array from byte 0 on is the beginning of the list of bytes (00_scope.md R18). -/
theorem toList_slice_zero {n len : Nat} (a : Bytes n) (h : len ≤ n) : (slice a 0 len).toList = a.toList.take len := by
  refine List.ext_getElem (by simp [h]) fun i hi hi' => ?_
  have hlt : i < len := by simpa using hi
  rw [← List.getD_eq_getElem _ 0 hi, List.getElem_take, ← List.getD_eq_getElem _ 0]
  exact (byteAt_slice a 0 len hlt).trans (by rw [Nat.zero_add, byteAt])

theorem exec_lichExtract (x : Bytes 46) (s : State) :
    exec (.lichExtract x) s = .next (s.answer (.bytes (lichExtract x).toList) .none) := rfl

/-! ### Big-endian words -/

theorem toNat_append_byte {w : Nat} (x : BitVec w) (b : Byte) : (x ++ b).toNat = x.toNat * 256 + b.toNat := by
  rw [BitVec.toNat_append, ← Nat.shiftLeft_add_eq_or_of_lt b.isLt, Nat.shiftLeft_eq]

/-- The first byte of a sub-block is the most significant (30_encoding.md R64). -/
theorem toNat_lichCodeword (lich : Bytes 12) (i : Nat) :
    (lichCodeword lich i).toNat = (byteAt lich (3 * i)).toNat * 65536 + (byteAt lich (3 * i + 1)).toNat * 256 +
      (byteAt lich (3 * i + 2)).toNat := by
  rw [lichCodeword, toNat_append_byte, toNat_append_byte]
  omega

/-! ### The segment of four values -/

theorem extractLsb'_extractLsb' {w : Nat} (x : BitVec w) {a m b len : Nat} (h : b + len ≤ m) :
    (x.extractLsb' a m).extractLsb' b len = x.extractLsb' (a + b) len := by
  refine BitVec.eq_of_getLsbD_eq fun i hi => ?_
  have hin : b + i < m := by omega
  simp [hi, hin, Nat.add_assoc]

/-- Two values that stand side by side in a word give the part of it across their border. -/
theorem extractLsb'_append_across {w : Nat} (x : BitVec w) (a : Nat) :
    (x.extractLsb' (a + 12) 12).extractLsb' 0 4 ++ (x.extractLsb' a 12).extractLsb' 8 4 =
      x.extractLsb' (a + 8) 8 := by
  rw [extractLsb'_extractLsb' x (by decide), extractLsb'_extractLsb' x (by decide)]
  exact BitVec.extractLsb'_append_extractLsb'_eq_extractLsb' rfl

/-- The four values are the four 12-bit parts of their concatenation. -/
theorem extractLsb'_of_concatenation {v0 v1 v2 v3 : BitVec 12} {seg : BitVec 48}
    (h : seg = (v0 ++ v1) ++ (v2 ++ v3)) :
    seg.extractLsb' 36 12 = v0 ∧ seg.extractLsb' 24 12 = v1 ∧ seg.extractLsb' 12 12 = v2 ∧
      seg.extractLsb' 0 12 = v3 := by
  subst h
  have hhigh {a : Nat} (ha : 24 ≤ a) :
      ((v0 ++ v1) ++ (v2 ++ v3)).extractLsb' a 12 = (v0 ++ v1).extractLsb' (a - 24) 12 :=
    BitVec.extractLsb'_append_eq_of_le ha
  have hlow {a : Nat} (ha : a + 12 ≤ 24) :
      ((v0 ++ v1) ++ (v2 ++ v3)).extractLsb' a 12 = (v2 ++ v3).extractLsb' a 12 :=
    BitVec.extractLsb'_append_eq_of_add_le ha
  exact ⟨(hhigh (by decide)).trans BitVec.extractLsb'_append_eq_left,
    (hhigh (by decide)).trans BitVec.extractLsb'_append_eq_right,
    (hlow (by decide)).trans BitVec.extractLsb'_append_eq_left,
    (hlow (by decide)).trans BitVec.extractLsb'_append_eq_right⟩

/-- A segment is its four values, most significant first (44_lich.md R153). -/
theorem byteAt_packSegment {v0 v1 v2 v3 : BitVec 12} {seg : BitVec 48} (h : seg = (v0 ++ v1) ++ (v2 ++ v3))
    {k : Nat} (hk : k < 6) : byteAt (packSegment v0 v1 v2 v3) k = seg.extractLsb' (40 - 8 * k) 8 := by
  obtain ⟨rfl, rfl, rfl, rfl⟩ := extractLsb'_of_concatenation h
  interval_cases k
  · exact extractLsb'_extractLsb' seg (by decide)
  · exact extractLsb'_append_across seg 24
  · exact extractLsb'_extractLsb' seg (by decide)
  · exact extractLsb'_extractLsb' seg (by decide)
  · exact extractLsb'_append_across seg 0
  · exact extractLsb'_extractLsb' seg (by decide)

/-- The number is bits 7 to 5 of the last byte (44_lich.md R154, 30_encoding.md R69). -/
theorem segNumber_packSegment {v0 v1 v2 v3 : BitVec 12} {seg : BitVec 48} (h : seg = (v0 ++ v1) ++ (v2 ++ v3)) :
    segNumber (packSegment v0 v1 v2 v3) = seg.extractLsb' 5 3 := by
  rw [segNumber, byteAt_packSegment h (by decide)]
  exact extractLsb'_extractLsb' seg (by decide)

/-- A segment number is 0 to 5, or the segment is abandoned (44_lich.md R155). -/
theorem lichSegment_eq {v0 v1 v2 v3 : BitVec 12} {seg : BitVec 48} (h : seg = (v0 ++ v1) ++ (v2 ++ v3)) :
    lichSegment v0 v1 v2 v3 =
      if hn : (seg.extractLsb' 5 3).toNat < 6 then
        .segment (segContent (packSegment v0 v1 v2 v3)) ⟨(seg.extractLsb' 5 3).toNat, hn⟩
      else .segnumInvalid (seg.extractLsb' 5 3) := by
  simp only [lichSegment, segNumber_packSegment h]

/-! ### The outcome of LICH_UNPACK -/

theorem exists_ok_of_ne_uncorrectable {r : GolayResult} (h : r ≠ .uncorrectable) : ∃ v, r = .ok v := by
  cases r with
  | ok v => exact ⟨v, rfl⟩
  | uncorrectable => exact absurd rfl h

/-- The first uncorrectable sub-block names the outcome, before the number is looked at (44_lich.md R152,
60_exceptions.md R193). -/
theorem lichUnpack_of_first_uncorrectable {lich : Bytes 12} {i : Nat} (hlt : i < 4)
    (hi : golay24Decode (lichCodeword lich i) = .uncorrectable)
    (hbefore : ∀ j < i, golay24Decode (lichCodeword lich j) ≠ .uncorrectable) :
    lichUnpack lich = .golayUncorrectable ⟨i, hlt⟩ := by
  have hok (j : Nat) (hj : j < i) := exists_ok_of_ne_uncorrectable (hbefore j hj)
  interval_cases i
  · simp only [lichUnpack, hi, Fin.zero_eta]
  · obtain ⟨v0, h0⟩ := hok 0 (by decide)
    simp only [lichUnpack, h0, hi, Fin.mk_one]
  · obtain ⟨v0, h0⟩ := hok 0 (by decide)
    obtain ⟨v1, h1⟩ := hok 1 (by decide)
    simp only [lichUnpack, h0, h1, hi, Fin.reduceFinMk]
  · obtain ⟨v0, h0⟩ := hok 0 (by decide)
    obtain ⟨v1, h1⟩ := hok 1 (by decide)
    obtain ⟨v2, h2⟩ := hok 2 (by decide)
    simp only [lichUnpack, h0, h1, h2, hi, Fin.reduceFinMk]

theorem exec_lichUnpack (lich : Bytes 12) (s : State) :
    exec (.lichUnpack lich) s = .next (s.answer (.lich (lichUnpack lich)) (lichCondition (lichUnpack lich))) := rfl

/-! ### The obligations -/

/-- Settles O29: the LICH field is the beginning of the payload. -/
theorem lichExtractTakesTheFirstTwelveBytes : Obligations.LichExtractTakesTheFirstTwelveBytes := by
  intro x s
  rw [exec_lichExtract, lichExtract, toList_slice_zero x (by decide), State.answer]

/-- Settles O31: the number is in the low byte of the concatenation, and so in the fourth value. -/
theorem segmentIsTheConcatenationOfTheFourValues : Obligations.SegmentIsTheConcatenationOfTheFourValues := by
  intro v0 v1 v2 v3 seg h
  obtain ⟨-, -, -, hv3⟩ := extractLsb'_of_concatenation h
  refine ⟨fun k hk => byteAt_packSegment h hk, ?_⟩
  rw [segNumber_packSegment h, ← hv3, extractLsb'_extractLsb' seg (by decide)]

/-- Settles O30: an uncorrectable sub-block by `lichUnpack_of_first_uncorrectable`, four values by
`lichSegment_eq`. -/
theorem lichUnpackChecksAllCodewordsBeforeTheNumber : Obligations.LichUnpackChecksAllCodewordsBeforeTheNumber := by
  intro lich s
  refine ⟨_, exec_lichUnpack lich s, fun i => lichCodeword lich i.val, fun i => toNat_lichCodeword lich i.val,
    fun i hi hbefore => lichUnpack_of_first_uncorrectable i.isLt hi fun j hj => hbefore ⟨j, hj.trans i.isLt⟩ hj,
    fun v0 v1 v2 v3 h0 h1 h2 h3 => ?_⟩
  have hr := (lichUnpack_of_ok h0 h1 h2 h3).trans (lichSegment_eq rfl)
  refine ⟨_, rfl, fun hn => ⟨_, hr.trans (dif_pos hn), fun k hk => ?_⟩,
    fun hn => hr.trans (dif_neg (Nat.not_lt.mpr hn))⟩
  rw [segContent, byteAt_slice _ _ _ hk, Nat.zero_add, byteAt_packSegment rfl (by omega)]

end Sys2Proof.Machine
end

section
/-! PROOFS. The reassembly of the LSF (spec/44_lich.md R157 to R164): what LICH_ACCUMULATE copies, marks and
clears, that no bit of the bitmap is cleared alone, and what segments delivered in any order add up to.

`Collects l got scratch map` is what every delivery of a segment of `l` keeps as long as one number is missing. -/

namespace Sys2Proof.Machine

/-! ### The copy, the mark and the complete bitmap -/

theorem byteAt_copySegment_self (scratch : Bytes 30) (content : Bytes 5) (n : Fin 6) {k : Nat} (hk : k < 5) :
    byteAt (copySegment scratch content n) (5 * n.val + k) = byteAt content k := by
  rw [byteAt_copySegment _ _ _ (by omega), if_pos (by omega), Nat.add_sub_cancel_left]

/-- The copy writes its 5 bytes only (44_lich.md R157). -/
theorem byteAt_copySegment_of_outside (scratch : Bytes 30) (content : Bytes 5) {n : Fin 6} {j : Nat} (hj : j < 30)
    (hout : j < 5 * n.val ∨ 5 * n.val + 5 ≤ j) :
    byteAt (copySegment scratch content n) j = byteAt scratch j := by
  rw [byteAt_copySegment _ _ _ hj, if_neg (by omega)]

theorem byteAt_segmentOf (l : Bytes 30) (n : Fin 6) {k : Nat} (hk : k < 5) :
    byteAt (segmentOf l n) k = byteAt l (5 * n.val + k) := byteAt_slice l _ 5 hk

/-- Two arrays of 30 bytes with the same six segments are the same. -/
theorem bytes_ext_segments {a b : Bytes 30}
    (h : ∀ n : Fin 6, ∀ k < 5, byteAt a (5 * n.val + k) = byteAt b (5 * n.val + k)) : a = b := by
  refine bytes_ext fun j hj => ?_
  have := h ⟨j / 5, by omega⟩ (j % 5) (Nat.mod_lt j (by decide))
  rwa [Nat.div_add_mod] at this

/-- Copying what stands there already changes nothing (44_lich.md R161). -/
theorem copySegment_of_present {scratch : Bytes 30} {content : Bytes 5} {n : Fin 6}
    (h : ∀ k < 5, byteAt scratch (5 * n.val + k) = byteAt content k) :
    copySegment scratch content n = scratch := by
  refine bytes_ext_segments fun m k hk => ?_
  by_cases hm : m = n
  · rw [hm, byteAt_copySegment_self _ _ _ hk, h k hk]
  · exact byteAt_copySegment_of_ne scratch content hm hk

/-- The mark in the form of 44_lich.md R158. -/
theorem markSegment_eq_or_shift (map : BitVec 6) (n : Fin 6) : markSegment map n = map ||| (1#6 <<< n.val) := rfl

theorem segmap_ext {a b : BitVec 6} (h : ∀ n : Fin 6, a.getLsbD n.val = b.getLsbD n.val) : a = b :=
  BitVec.eq_of_getLsbD_eq fun i hi => h ⟨i, hi⟩

/-- Marking a marked segment changes nothing (44_lich.md R161). -/
theorem markSegment_of_marked {map : BitVec 6} {n : Fin 6} (h : map.getLsbD n.val = true) :
    markSegment map n = map := by
  refine segmap_ext fun m => ?_
  rw [getLsbD_markSegment]
  by_cases hm : m = n
  · simp [hm, h]
  · simp [hm]

/-- The bitmap is complete when all six bits are set (44_lich.md R159). -/
theorem segmap_complete_iff {map : BitVec 6} : map = 0x3F#6 ↔ ∀ n : Fin 6, map.getLsbD n.val = true := by
  have hones : ∀ n : Fin 6, (0x3F#6).getLsbD n.val = true := by decide
  exact ⟨fun h => h ▸ hones, fun h => segmap_ext fun n => (h n).trans (hones n).symm⟩

/-! ### LICH_ACCUMULATE, complete and incomplete -/

/-- The segment that completes the bitmap: validate, adopt if valid, and clear (44_lich.md R159). -/
theorem accumulate_of_complete {content : Bytes 5} {n : Fin 6} {d : Decoder}
    (h : markSegment d.segmap n = 0x3F#6) :
    accumulate content n d =
      ({ d with lsf := if lsfValid (copySegment d.lsfScratch content n) then copySegment d.lsfScratch content n
                  else d.lsf,
                lsfScratch := zeroBytes 30, segmap := 0 },
        if lsfValid (copySegment d.lsfScratch content n) then .none else .lsfInvalid) := by
  rcases accumulate_cases content n d with ⟨hm, -⟩ | ⟨-, hv, e⟩ | ⟨-, hv, e⟩
  · exact absurd h hm
  · simp [e, hv]
  · simp [e, hv]

theorem exec_lichAccumulate (content : Bytes 5) (n : Fin 6) (s : State) :
    exec (.lichAccumulate content n) s =
      .next (s.finish (accumulate content n s.dec).1 none (accumulate content n s.dec).2) := rfl

/-! ### The bits of the bitmap -/

/-- Every segment marked in `d` is marked in `e`, or all marks of `e` are cleared (44_lich.md R158). -/
def KeepsMarks (d e : Decoder) : Prop :=
  e.segmap = 0 ∨ ∀ n < 6, d.segmap.getLsbD n = true → e.segmap.getLsbD n = true

theorem keepsMarks_of_eq {d e : Decoder} (h : e.segmap = d.segmap) : KeepsMarks d e :=
  .inr fun _ _ hbit => h ▸ hbit

theorem accumulate_keepsMarks (content : Bytes 5) (n : Fin 6) (d : Decoder) :
    KeepsMarks d (accumulate content n d).1 := by
  by_cases hm : markSegment d.segmap n = 0x3F#6
  · rw [accumulate_of_complete hm]
    exact .inl rfl
  · rw [accumulate_of_incomplete hm]
    refine .inr fun m hm hbit => ?_
    exact (getLsbD_markSegment d.segmap n ⟨m, hm⟩).trans (by simp [hbit])

theorem applyLich_keepsMarks (r : LichResult) (d : Decoder) : KeepsMarks d (applyLich r d).1 := by
  rcases applyLich_cases r d with ⟨content, n, -, e⟩ | ⟨-, e⟩ <;> rw [e]
  · exact accumulate_keepsMarks content n d
  · exact keepsMarks_of_eq rfl

/-- No operation clears one bit of the bitmap alone (44_lich.md R158). -/
theorem exec_keepsMarks {i : Instr} {s t : State} (h : exec i s = .next t) : KeepsMarks s.dec t.dec := by
  rcases exec_dec_cases h with e | ⟨-, e⟩ | ⟨x, -, e⟩ | ⟨x, -, e⟩ | ⟨content, n, -, e⟩ <;> rw [e]
  · exact keepsMarks_of_eq rfl
  · exact .inl Decoder.cleared_segmap
  · exact keepsMarks_of_eq (linkSetupPath_segmap ..)
  · rw [KeepsMarks, streamPath_segmap]
    exact applyLich_keepsMarks _ s.dec
  · exact accumulate_keepsMarks content n s.dec

/-! ### What has been delivered -/

/-- A scratch LSF and a bitmap hold exactly the segments `got` of `l`: these numbers are marked, and their bytes
are those of `l`. -/
def Collects (l : Bytes 30) (got : List (Fin 6)) (scratch : Bytes 30) (map : BitVec 6) : Prop :=
  (∀ n : Fin 6, map.getLsbD n.val = true ↔ n ∈ got) ∧
    ∀ n ∈ got, ∀ k < 5, byteAt scratch (5 * n.val + k) = byteAt l (5 * n.val + k)

theorem collects_nil (l scratch : Bytes 30) : Collects l [] scratch 0 := by
  refine ⟨fun n => ?_, fun _ hn => absurd hn List.not_mem_nil⟩
  simp

/-- Copying and marking one more segment, before any completion is looked at (44_lich.md R157, R158). -/
theorem Collects.mark {l : Bytes 30} {got : List (Fin 6)} {scratch : Bytes 30} {map : BitVec 6}
    (h : Collects l got scratch map) (n : Fin 6) :
    Collects l (got ++ [n]) (copySegment scratch (segmentOf l n) n) (markSegment map n) := by
  obtain ⟨hmarks, hbytes⟩ := h
  refine ⟨fun m => ?_, fun m hm k hk => ?_⟩
  · rw [getLsbD_markSegment, Bool.or_eq_true, hmarks m, decide_eq_true_iff, List.mem_append, List.mem_singleton]
  · by_cases hmn : m = n
    · rw [hmn, byteAt_copySegment_self _ _ _ hk, byteAt_segmentOf l n hk]
    · have hgot : m ∈ got := by simpa [hmn] using hm
      exact (byteAt_copySegment_of_ne scratch _ hmn hk).trans (hbytes m hgot k hk)

theorem Collects.incomplete {l : Bytes 30} {got : List (Fin 6)} {scratch : Bytes 30} {map : BitVec 6}
    (h : Collects l got scratch map) {n : Fin 6} (hn : n ∉ got) : map ≠ 0x3F#6 := by
  obtain ⟨hmarks, -⟩ := h
  exact fun hfull => hn ((hmarks n).mp (segmap_complete_iff.mp hfull n))

/-- All six segments of `l` are `l` (44_lich.md R162). -/
theorem Collects.complete {l : Bytes 30} {got : List (Fin 6)} {scratch : Bytes 30} {map : BitVec 6}
    (h : Collects l got scratch map) (hall : ∀ n, n ∈ got) : map = 0x3F#6 ∧ scratch = l := by
  obtain ⟨hmarks, hbytes⟩ := h
  exact ⟨segmap_complete_iff.mpr fun n => (hmarks n).mpr (hall n),
    bytes_ext_segments fun n k hk => hbytes n (hall n) k hk⟩

theorem runOps_append_of_next {is : List Instr} {s u : State} (h : runOps is s = .next u) (js : List Instr) :
    runOps (is ++ js) s = runOps js u := by
  induction is generalizing s with
  | nil =>
    cases h
    rfl
  | cons i is ih =>
    rw [List.cons_append, runOps]
    rw [runOps] at h
    cases hi : exec i s with
    | next v =>
      rw [hi] at h
      exact ih h
    | fault r => cases r
    | refused r =>
      rw [hi] at h
      cases h

/-- The delivery of these segments of `l`, in this order. -/
def deliveries (l : Bytes 30) (order : List (Fin 6)) : List Instr :=
  order.map fun n => .lichAccumulate (segmentOf l n) n

/-- One more delivery runs from the state that the deliveries before it left. -/
theorem runOps_deliveries_snoc {l : Bytes 30} {order : List (Fin 6)} {s u : State}
    (h : runOps (deliveries l order) s = .next u) (n : Fin 6) :
    runOps (deliveries l (order ++ [n])) s = exec (.lichAccumulate (segmentOf l n) n) u := by
  rw [deliveries, List.map_append, List.map_singleton]
  exact (runOps_append_of_next h _).trans (runOps_cons_of_next (exec_lichAccumulate _ n u) [])

/-- While one number is missing, deliveries only collect (44_lich.md R164). -/
theorem runOps_deliveries_of_missing (l : Bytes 30) {s : State} (hs : s.dec.segmap = 0) {missing : Fin 6}
    {order : List (Fin 6)} (hmissing : missing ∉ order) :
    ∃ t, runOps (deliveries l order) s = .next t ∧ t.dec.lsf = s.dec.lsf ∧ t.dec.stream = s.dec.stream ∧
      Collects l order t.dec.lsfScratch t.dec.segmap := by
  induction order using List.reverseRecOn with
  | nil => exact ⟨s, rfl, rfl, rfl, hs ▸ collects_nil l s.dec.lsfScratch⟩
  | append_singleton order n ih =>
    obtain ⟨u, hrun, hlsf, hstream, hcollects⟩ := ih fun hin => hmissing (List.mem_append_left [n] hin)
    have hmark := hcollects.mark n
    refine ⟨_, (runOps_deliveries_snoc hrun n).trans (exec_lichAccumulate ..), ?_⟩
    rw [State.finish_dec, accumulate_of_incomplete (hmark.incomplete hmissing)]
    exact ⟨hlsf, hstream, hmark⟩

/-! ### The obligations -/

/-- Settles O34: the deliveries before the last only collect, and the last one completes `l` itself. -/
theorem sixSegmentsInAnyOrderRebuildTheLsf : Obligations.SixSegmentsInAnyOrderRebuildTheLsf := by
  intro l s order last hs hlast hothers
  obtain ⟨u, hrun, hlsf, hstream, hcollects⟩ := runOps_deliveries_of_missing l hs hlast
  have hall : ∀ n, n ∈ order ++ [last] := fun n => by
    by_cases hn : n = last
    · simp [hn]
    · exact List.mem_append_left _ (hothers n hn)
  obtain ⟨hfull, hscratch⟩ := (hcollects.mark last).complete hall
  refine ⟨_, (runOps_deliveries_snoc hrun last).trans (exec_lichAccumulate ..), ?_⟩
  rw [State.finish_dec, accumulate_of_complete hfull, hscratch, hlsf]
  exact ⟨rfl, rfl, fun j _ => byteAt_zeroBytes 30 j, hstream⟩

/-- Settles O35, by what the deliveries collect while one number is missing. -/
theorem missingSegmentLeavesTheOthersMarked : Obligations.MissingSegmentLeavesTheOthersMarked :=
  fun l _ _ _ hs hmissing => runOps_deliveries_of_missing l hs hmissing

/-- Settles O32, by the two ways LICH_ACCUMULATE ends. -/
theorem lichAccumulateCopiesMarksAndCompletes : Obligations.LichAccumulateCopiesMarksAndCompletes := by
  intro content n s
  refine ⟨_, copySegment s.dec.lsfScratch content n, exec_lichAccumulate content n s, State.finish_input ..,
    fun k hk => byteAt_copySegment_self _ _ n hk, fun j hj => byteAt_copySegment_of_outside _ _ hj,
    fun hpart => ?_, fun hfull => ?_⟩
  · rw [State.finish_dec, State.finish_condition, accumulate_of_incomplete hpart]
    exact ⟨rfl, rfl⟩
  · rw [State.finish_dec, State.finish_condition, accumulate_of_complete hfull]
    exact ⟨rfl, fun j _ => byteAt_zeroBytes 30 j, rfl, rfl, rfl⟩

/-- Settles O33: the mark changes nothing, so the bitmap stays incomplete and the copy alone is left. -/
theorem repeatedSegmentOverwritesItsBytesOnly : Obligations.RepeatedSegmentOverwritesItsBytesOnly := by
  intro content n s hpart hmarked
  have hmark := markSegment_of_marked hmarked
  refine ⟨_, exec_lichAccumulate content n s, ?_⟩
  rw [State.finish_dec, accumulate_of_incomplete (hmark.symm ▸ hpart), hmark]
  refine ⟨rfl, rfl, rfl, fun k hk => byteAt_copySegment_self _ _ n hk,
    fun j hj => byteAt_copySegment_of_outside _ _ hj, fun hsame => ?_⟩
  rw [copySegment_of_present hsame]

/-- Settles O39: the second part is `exec_keepsMarks`. -/
theorem segmentBitsAreOnlyClearedTogether : Obligations.SegmentBitsAreOnlyClearedTogether := by
  refine ⟨fun content n s hpart => ⟨_, exec_lichAccumulate content n s, ?_⟩, fun i s t h => exec_keepsMarks h⟩
  rw [State.finish_dec, accumulate_of_incomplete hpart]
  exact markSegment_eq_or_shift s.dec.segmap n

end Sys2Proof.Machine
end

section
/-! PROOFS. The check of LSF_VALID (spec/44_lich.md R160): the check over a message and two bytes vanishes exactly
when the two bytes are the check over the message.

One shift is linear and loses no bit (`crcShift_xor`, `crcShift_eq_zero_iff`), so the last two bytes may be
entered together, as the exclusive or with the check so far, before 16 shifts (`crcByte_crcByte`). -/

namespace Sys2Proof.Machine

/-! ### One shift of the check -/

theorem crcShift_eq_xor (x : BitVec 16) :
    crcShift x = (x <<< 1) ^^^ (if x.getLsbD 15 then crcPoly else 0) := by
  rw [crcShift]
  split
  · rfl
  · exact BitVec.xor_zero.symm

theorem crcShift_xor (x y : BitVec 16) : crcShift (x ^^^ y) = crcShift x ^^^ crcShift y := by
  have hpoly : (if (x ^^^ y).getLsbD 15 then crcPoly else 0) =
      (if x.getLsbD 15 then crcPoly else 0) ^^^ (if y.getLsbD 15 then crcPoly else 0) := by
    rw [BitVec.getLsbD_xor]
    cases x.getLsbD 15 <;> cases y.getLsbD 15 <;> simp
  rw [crcShift_eq_xor, crcShift_eq_xor, crcShift_eq_xor, hpoly, BitVec.shiftLeft_xor_distrib]
  ac_rfl

theorem crcShift_of_clear {x : BitVec 16} (h : x.getLsbD 15 = false) : crcShift x = x <<< 1 := by
  rw [crcShift, h, if_neg Bool.false_ne_true]

/-- Bit 0 of the polynomial is set, so the bit shifted out at the top is seen at the bottom. -/
theorem getLsbD_crcShift_zero (x : BitVec 16) : (crcShift x).getLsbD 0 = x.getLsbD 15 := by
  have hpoly : crcPoly.getLsbD 0 = true := by decide
  rw [crcShift_eq_xor, BitVec.getLsbD_xor]
  cases x.getLsbD 15 <;> simp [hpoly]

theorem crcShift_eq_zero_iff {x : BitVec 16} : crcShift x = 0 ↔ x = 0 := by
  refine ⟨fun h => ?_, fun h => by rw [h]; decide⟩
  have htop : x.getLsbD 15 = false := by
    rw [← getLsbD_crcShift_zero, h]
    rfl
  rw [crcShift_of_clear htop] at h
  refine BitVec.eq_of_getLsbD_eq fun i hi => ?_
  by_cases hi15 : i = 15
  · rw [hi15, htop]
    rfl
  · have hshift : (x <<< 1).getLsbD (i + 1) = x.getLsbD i := by
      rw [BitVec.getLsbD_shiftLeft]
      simp [show i + 1 < 16 by omega]
    rw [← hshift, h, BitVec.ofNat_eq_ofNat, BitVec.getLsbD_zero, BitVec.getLsbD_zero]

/-! ### Several shifts -/

theorem repeat_crcShift_xor (k : Nat) (x y : BitVec 16) :
    Nat.repeat crcShift k (x ^^^ y) = Nat.repeat crcShift k x ^^^ Nat.repeat crcShift k y := by
  induction k with
  | zero => rfl
  | succ k ih => rw [Nat.repeat, Nat.repeat, Nat.repeat, ih, crcShift_xor]

theorem repeat_crcShift_eq_zero_iff (k : Nat) {x : BitVec 16} : Nat.repeat crcShift k x = 0 ↔ x = 0 := by
  induction k with
  | zero => rfl
  | succ k ih => rw [Nat.repeat, crcShift_eq_zero_iff, ih]

/-- Clear bits are shifted out without the polynomial. -/
theorem repeat_crcShift_of_clear {k : Nat} (hk : k ≤ 16) {x : BitVec 16}
    (h : ∀ i, 16 - k ≤ i → x.getLsbD i = false) : Nat.repeat crcShift k x = x <<< k := by
  induction k with
  | zero => exact (BitVec.shiftLeft_zero x).symm
  | succ k ih =>
    have htop : (x <<< k).getLsbD 15 = false := by
      rw [BitVec.getLsbD_shiftLeft, h (15 - k) (by omega), Bool.and_false]
    rw [Nat.repeat, ih (by omega) fun i hi => h i (by omega), crcShift_of_clear htop, BitVec.shiftLeft_add]

/-! ### The last two bytes -/

theorem repeat_crcShift_byte (b : Byte) : Nat.repeat crcShift 8 (0#8 ++ b) = b ++ 0#8 := by
  have hclear : ∀ i, 16 - 8 ≤ i → (0#8 ++ b).getLsbD i = false := fun i hi => by
    rw [BitVec.getLsbD_append]
    simp [show ¬ i < 8 by omega]
  rw [repeat_crcShift_of_clear (by decide) hclear]
  have hb := b.isLt
  rw [← BitVec.toNat_inj, BitVec.toNat_shiftLeft, toNat_append_byte, toNat_append_byte, Nat.shiftLeft_eq,
    BitVec.toNat_zero]
  omega

/-- Two bytes enter the check together. -/
theorem crcByte_crcByte (crc : BitVec 16) (b c : Byte) :
    crcByte (crcByte crc b) c = Nat.repeat crcShift 8 (Nat.repeat crcShift 8 (crc ^^^ (b ++ c))) := by
  have hsplit : b ++ c = (b ++ 0#8) ^^^ (0#8 ++ c) := by
    rw [BitVec.xor_append, BitVec.xor_zero, BitVec.zero_xor]
  rw [crcByte, crcByte, ← repeat_crcShift_byte c, ← repeat_crcShift_xor, hsplit, BitVec.xor_assoc]

/-- The check over a message and two bytes vanishes exactly when they are the check over the message
(44_lich.md R160). -/
theorem crc16_append_eq_zero_iff (d : List Byte) (b c : Byte) : crc16 (d ++ [b, c]) = 0 ↔ crc16 d = b ++ c := by
  have hlast : crc16 (d ++ [b, c]) = crcByte (crcByte (crc16 d) b) c := by
    rw [crc16, crc16, List.foldl_append, List.foldl_cons, List.foldl_cons, List.foldl_nil]
  rw [hlast, crcByte_crcByte, repeat_crcShift_eq_zero_iff, repeat_crcShift_eq_zero_iff]
  exact BitVec.xor_eq_zero_iff

/-! ### LSF_VALID -/

theorem toList_eq_take_append (l : Bytes 30) : l.toList = l.toList.take 28 ++ [byteAt l 28, byteAt l 29] := by
  have hdrop : l.toList.drop 28 = [byteAt l 28, byteAt l 29] := by
    rw [List.drop_eq_getElem_cons (by simp), List.drop_eq_getElem_cons (by simp), List.drop_of_length_le (by simp),
      Vector.getElem_toList, Vector.getElem_toList, byteAt_of_lt, byteAt_of_lt]
  rw [← hdrop, List.take_append_drop]

theorem lsfValid_iff (l : Bytes 30) :
    lsfValid l = true ↔ crc16 (l.toList.take 28) = byteAt l 28 ++ byteAt l 29 := by
  rw [lsfValid, toList_slice_zero l (by decide), beq_iff_eq]

theorem exec_lsfValid (l : Bytes 30) (s : State) :
    exec (.lsfValid l) s = .next (s.answer (.valid (lsfValid l)) .none) := rfl

/-! ### The obligation -/

/-- Settles O36, from `lsfValid_iff` and `crc16_append_eq_zero_iff`. -/
theorem lsfValidIsAVanishingCheckOverAllBytes : Obligations.LsfValidIsAVanishingCheckOverAllBytes := by
  intro l s
  refine ⟨_, exec_lsfValid l s, ?_, ?_⟩
  · rw [lsfValid_iff, ← BitVec.toNat_inj, toNat_append_byte]
  · rw [lsfValid_iff, ← crc16_append_eq_zero_iff, ← toList_eq_take_append]

end Sys2Proof.Machine
end

section
/-! PROOFS. The frame decoder (spec/45_frame_decoder.md): what RESET and each path do to the Decoder State (R170,
R173 to R176), that DECODE_FRAME is the path its sync field selects (R171), and how far the open Viterbi choice
reaches (R179).

The four paths are one function, `runPath`: both DECODE_FRAME (`decodeFrameWith_eq_runPath`) and the path rows
(`exec_pathRow`) are tied to it, and what the choice reaches is read off `runPath_of_other_choice`. -/

namespace Sys2Proof.Machine

/-! ### The four paths as one function -/

/-- What the path of frames of type `t` does to the Decoder State, with the condition it notes
(45_frame_decoder.md R173 to R176). -/
def runPath : FrameType → VitChoice → Bytes 46 → Decoder → Decoder × Condition
  | .preamble, _, _, d => (d, .none)
  | .linkSetup, c, x, d => (linkSetupPath c x d, .none)
  | .stream, c, x, d => streamPath c x d
  | .unknown, _, _, d => (d, .syncMismatch)

/-- DECODE_FRAME returns the type of the sync field and runs the path of that type (45_frame_decoder.md R171). -/
theorem decodeFrameWith_eq_runPath (c : VitChoice) (frame : Bytes 48) (d : Decoder) :
    decodeFrameWith c frame d =
      (classify (frameSync frame), runPath (classify (frameSync frame)) c (bitxform (framePayload frame)) d) := by
  rcases decodeFrameWith_cases c frame d with ⟨hc, e⟩ | ⟨hc, e⟩ | ⟨hc, e⟩ | ⟨hc, e⟩ <;> rw [e, hc] <;> rfl

/-- A path row transforms its payload, runs its path and returns its type (45_frame_decoder.md R172, log 17). -/
theorem exec_pathRow (t : FrameType) (sync : Bytes 2) (payload : Bytes 46) (s : State) :
    exec (pathRow t sync payload) s =
      .next (s.finish (runPath t vitChoice (bitxform payload) s.dec).1 (some (.frameType t))
        (runPath t vitChoice (bitxform payload) s.dec).2) := by
  cases t <;> rfl

theorem exec_decodeFrame_eq_runPath (frame : Bytes 48) (s : State) :
    exec (.decodeFrame frame) s =
      .next (s.finish
        (runPath (classify (frameSync frame)) vitChoice (bitxform (framePayload frame)) s.dec).1
        (some (.frameType (classify (frameSync frame))))
        (runPath (classify (frameSync frame)) vitChoice (bitxform (framePayload frame)) s.dec).2) := by
  rw [exec_decodeFrame, decodeFrameWith_eq_runPath]

/-- DECODE_FRAME means what the path row its sync field selects means (45_frame_decoder.md R171,
30_encoding.md R62). -/
theorem exec_decodeFrame_eq_exec_decodeSync (frame : Bytes 48) (s : State) :
    exec (.decodeFrame frame) s = exec (decodeSync frame) s := by
  rw [decodeSync_eq_pathRow, exec_pathRow, exec_decodeFrame_eq_runPath]

theorem exec_reset (s : State) : exec .reset s = .next (s.finish Decoder.cleared none .none) := rfl

/-! ### The STREAM path, segment accepted or abandoned -/

theorem streamPath_of_segment {x : Bytes 46} {content : Bytes 5} {n : Fin 6}
    (h : lichUnpack (lichExtract x) = .segment content n) (c : VitChoice) (d : Decoder) :
    streamPath c x d =
      ({ (accumulate content n d).1 with stream := convdecStream c x }, (accumulate content n d).2) := by
  rw [streamPath, h, applyLich]

/-- An abandoned segment leaves all but `STREAM` as it was (45_frame_decoder.md R174). -/
theorem streamPath_of_abandoned {x : Bytes 46}
    (h : ∀ content n, lichUnpack (lichExtract x) ≠ .segment content n) (c : VitChoice) (d : Decoder) :
    streamPath c x d =
      ({ d with stream := convdecStream c x }, lichCondition (lichUnpack (lichExtract x))) := by
  rcases applyLich_cases (lichUnpack (lichExtract x)) d with ⟨content, n, hr, -⟩ | ⟨-, e⟩
  · exact absurd hr (h content n)
  · rw [streamPath, e]

/-! ### What the open choice reaches -/

/-- Another choice of the open parameters redoes one convolutional decoding: that of `LSF` on the LINK_SETUP
path, that of `STREAM` on the STREAM path, and none on the others (45_frame_decoder.md R179). -/
theorem runPath_of_other_choice (t : FrameType) (c c' : VitChoice) (x : Bytes 46) (d : Decoder) :
    runPath t c' x d =
      ({ (runPath t c x d).1 with
          lsf := if t = .linkSetup then convdecLsf c' x else (runPath t c x d).1.lsf
          stream := if t = .stream then convdecStream c' x else (runPath t c x d).1.stream },
        (runPath t c x d).2) := by
  cases t <;> rfl

/-! ### The obligations -/

/-- Settles O7: the STREAM path overwrites `STREAM` with the decoded bytes behind its LICH part, which
`streamPath_of_segment` and `streamPath_of_abandoned` give. -/
theorem streamPathAccumulatesThenDecodesTheStreamBytes :
    Obligations.StreamPathAccumulatesThenDecodesTheStreamBytes := by
  intro sync payload s
  refine ⟨_, exec_pathRow .stream sync payload s, rfl, rfl, streamPath_stream .., fun content n hr => ?_,
    fun habandoned => ?_⟩
  · refine ⟨_, exec_lichAccumulate content n s, ?_⟩
    rw [runPath, streamPath_of_segment hr]
    exact ⟨rfl, rfl, rfl, rfl⟩
  · rw [runPath, streamPath_of_abandoned habandoned]
    exact ⟨rfl, rfl, rfl⟩

/-- Settles O43: the second part is `runPath_of_other_choice`, read component by component. -/
theorem openViterbiChoiceReachesOnlyTheDecodedBytes : Obligations.OpenViterbiChoiceReachesOnlyTheDecodedBytes := by
  refine ⟨fun frame s => ⟨_, exec_decodeFrame frame s, rfl, rfl⟩, fun c c' frame d => ?_⟩
  rw [decodeFrameWith_eq_runPath c, decodeFrameWith_eq_runPath c', runPath_of_other_choice _ c c']
  exact ⟨rfl, rfl, rfl, rfl, fun hc => (if_neg hc).symm, fun hc => (if_neg hc).symm⟩

/-- Settles O1: RESET leaves the cleared Decoder State, whose arrays are zero bytes. -/
theorem resetZeroesEveryComponent : Obligations.ResetZeroesEveryComponent := fun s =>
  ⟨_, exec_reset s, Decoder.cleared_segmap, fun j _ => byteAt_zeroBytes 30 j, fun j _ => byteAt_zeroBytes 30 j,
    fun j _ => byteAt_zeroBytes 18 j, rfl, rfl, rfl⟩

/-- Settles O5, by the path that `runPath` takes for each type. -/
theorem decodeFrameRunsThePathItsSyncFieldSelects : Obligations.DecodeFrameRunsThePathItsSyncFieldSelects := by
  intro frame s
  have hpath : ∀ t, classify (frameSync frame) = t →
      (runPath (classify (frameSync frame)) vitChoice (bitxform (framePayload frame)) s.dec).1 =
        (runPath t vitChoice (bitxform (framePayload frame)) s.dec).1 := fun _ hc => by rw [hc]
  exact ⟨_, exec_decodeFrame_eq_runPath frame s, rfl, rfl, hpath .linkSetup, hpath .stream, hpath .preamble,
    hpath .unknown, exec_decodeFrame_eq_exec_decodeSync frame s⟩

/-- Settles O6: the row of the LINK_SETUP path runs `linkSetupPath` and notes nothing. -/
theorem linkSetupPathWritesTheAdoptedLsfAlone : Obligations.LinkSetupPathWritesTheAdoptedLsfAlone :=
  fun sync payload s => exec_pathRow .linkSetup sync payload s

/-- Settles O8: both rows end with the Decoder State they found. -/
theorem preambleAndUnknownPathsChangeNothing : Obligations.PreambleAndUnknownPathsChangeNothing :=
  fun sync payload s => ⟨exec_pathRow .preamble sync payload s, exec_pathRow .unknown sync payload s⟩

end Sys2Proof.Machine
end

section
/-! PROOFS. The conditions of a frame and the ghost port (spec/60_exceptions.md): the effect of each row of the table
of conditions (R191 to R195), and that what an operation returned or noted is never read back (R210).

A condition is noted by the DF.UNKNOWN path or by one of the three failures of the STREAM path, which
`streamPath_condition_cases` lists with all that each leaves. -/

namespace Sys2Proof.Machine

/-! ### The conditions of the STREAM path -/

theorem lichSegment_segnumInvalid {v0 v1 v2 v3 : BitVec 12} {n : BitVec 3}
    (h : lichSegment v0 v1 v2 v3 = .segnumInvalid n) : 6 ≤ n.toNat := by
  rw [lichSegment_eq rfl] at h
  split at h
  · cases h
  · next hlarge =>
    obtain rfl := LichResult.segnumInvalid.inj h
    exact Nat.not_lt.mp hlarge

/-- Only four decoded values have a number to refuse, and it is 6 or 7 (44_lich.md R152, R155). -/
theorem lichUnpack_segnumInvalid {lich : Bytes 12} {n : BitVec 3} (h : lichUnpack lich = .segnumInvalid n) :
    6 ≤ n.toNat := by
  unfold lichUnpack at h
  split at h
  · exact lichSegment_segnumInvalid h
  all_goals cases h

/-- A STREAM frame notes nothing, abandons its segment, or discards a complete candidate; `STREAM` is written
in every case (60_exceptions.md R193 to R195). -/
theorem streamPath_condition_cases (c : VitChoice) (x : Bytes 46) (d : Decoder) :
    (∃ e, streamPath c x d = (e, .none)) ∨
    (∃ i, streamPath c x d = ({ d with stream := convdecStream c x }, .golayUncorrectable (some i))) ∨
    (∃ n, 6 ≤ n.toNat ∧ streamPath c x d = ({ d with stream := convdecStream c x }, .segnumInvalid n)) ∨
    streamPath c x d =
      ({ d with lsfScratch := zeroBytes 30, segmap := 0, stream := convdecStream c x }, .lsfInvalid) := by
  cases hr : lichUnpack (lichExtract x) with
  | segment content n =>
    rw [streamPath_of_segment hr]
    rcases accumulate_cases content n d with ⟨-, e⟩ | ⟨-, -, e⟩ | ⟨-, -, e⟩ <;> rw [e]
    · exact .inl ⟨_, rfl⟩
    · exact .inl ⟨_, rfl⟩
    · exact .inr (.inr (.inr rfl))
  | golayUncorrectable i =>
    rw [streamPath_of_abandoned (by simp [hr]), hr]
    exact .inr (.inl ⟨i, rfl⟩)
  | segnumInvalid n =>
    rw [streamPath_of_abandoned (by simp [hr]), hr]
    exact .inr (.inr (.inl ⟨n, lichUnpack_segnumInvalid hr, rfl⟩))

/-! ### The ghost port -/

/-- An answer overwrites what was returned and noted before. -/
theorem State.answer_congr {s s' : State} (hdec : s.dec = s'.dec) (hinput : s.input = s'.input) (r : Result)
    (c : Condition) : s.answer r c = s'.answer r c := by
  rw [State.answer, State.answer, hdec, hinput]

/-- The end of an operation overwrites all but the bytes still issued. -/
theorem State.finish_congr {s s' : State} (hinput : s.input = s'.input) (d : Decoder) (r : Option Result)
    (c : Condition) : s.finish d r c = s'.finish d r c := by
  rw [State.finish, State.finish, hinput]

theorem exec_pathRow_congr {s s' : State} (hdec : s.dec = s'.dec) (hinput : s.input = s'.input) (t : FrameType)
    (sync : Bytes 2) (payload : Bytes 46) : exec (pathRow t sync payload) s = exec (pathRow t sync payload) s' := by
  rw [exec_pathRow, exec_pathRow, hdec, State.finish_congr hinput]

/-- An operation depends on the Decoder State and the bytes issued alone: it ends by `State.finish` or
`State.answer`, or is refused on its operands (10_state.md R25, 60_exceptions.md R210). -/
theorem exec_congr {s s' : State} (hdec : s.dec = s'.dec) (hinput : s.input = s'.input) (i : Instr) :
    exec i s = exec i s' := by
  have hanswer := State.answer_congr hdec hinput
  have hfinish := State.finish_congr hinput
  cases i with
  | reset => rw [exec_reset, exec_reset, hfinish]
  | decodeFrame frame => rw [exec_decodeFrame, exec_decodeFrame, hdec, hfinish]
  | dfPreamble sync payload => exact exec_pathRow_congr hdec hinput .preamble sync payload
  | dfLinkSetup sync payload => exact exec_pathRow_congr hdec hinput .linkSetup sync payload
  | dfStream sync payload => exact exec_pathRow_congr hdec hinput .stream sync payload
  | dfUnknown sync payload => exact exec_pathRow_congr hdec hinput .unknown sync payload
  | lichAccumulate content n => rw [exec_lichAccumulate, exec_lichAccumulate, hdec, hfinish]
  | depuncture r pattern => simp only [exec, execDepuncture, hanswer]
  | viterbi y => simp only [exec, execViterbi, hanswer]
  | convdec b pattern n => simp only [exec, execConvdec, hanswer]
  | _ => exact congrArg Host.Outcome.next (hanswer ..)

theorem fetch_ne_idle {input : List Byte} (h : input ≠ []) : fetch input ≠ .idle := by
  rcases fetch_cases input with ⟨hi, -⟩ | ⟨_, -, hf⟩ | ⟨_, -, -, hf⟩ | ⟨_, -, -, hf⟩ | ⟨_, _, -, -, -, hf⟩
  · exact absurd hi h
  all_goals simp [hf]

/-- A step that is not idle runs an operation, or refuses the bytes issued whatever else the state holds. -/
theorem step_congr {s s' : State} (hdec : s.dec = s'.dec) (hinput : s.input = s'.input) (hissued : s.input ≠ []) :
    step s = step s' := by
  rw [step, step, ← hinput]
  cases hf : fetch s.input with
  | idle => exact absurd hf (fetch_ne_idle hissued)
  | run i rest => exact exec_congr (s := { s with input := rest }) (s' := { s' with input := rest }) hdec rfl i
  | refuse r => rfl

/-! ### The obligations -/

/-- Settles O41: the paths without a condition leave nothing to show, DF.UNKNOWN notes SYNC_MISMATCH, and the
STREAM path has the four cases of `streamPath_condition_cases`. -/
theorem conditionsHaveOnlyTheirLocalEffect : Obligations.ConditionsHaveOnlyTheirLocalEffect := by
  intro frame s
  refine ⟨_, exec_decodeFrame_eq_runPath frame s, ?_⟩
  simp only [State.finish_condition, State.finish_result, State.finish_dec]
  cases classify (frameSync frame) with
  | preamble | linkSetup | unknown => simp [runPath]
  | stream =>
    simp only [runPath]
    rcases streamPath_condition_cases vitChoice (bitxform (framePayload frame)) s.dec with
      ⟨_, e⟩ | ⟨i, e⟩ | ⟨n, hn, e⟩ | e
    · simp [e]
    · simp [e]
    · simp [e, hn]
    · simp [e, byteAt_zeroBytes]

/-- Settles O42, by `exec_congr` and `step_congr`. -/
theorem resultPortIsNeverReadBack : Obligations.ResultPortIsNeverReadBack :=
  fun _ _ hdec hinput => ⟨exec_congr hdec hinput, step_congr hdec hinput⟩

end Sys2Proof.Machine
end
